-- ==== Sys2Proof/Word.lean ====
section
/-! DEFINITION. The data widths of the core (spec/00_scope.md R8, R10): everything it stores or transfers is an
unsigned byte; a request or a response is a 32-bit word. -/

namespace Sys2Proof

/-- A stored or transferred data value, `DATA_BITS` = 8 (00_scope R8). -/
abbrev Byte := BitVec 8

/-- A button group, or the low half of the input-select register (10_state R24). -/
abbrev Nibble := BitVec 4

/-- A request word or a response word (30_encoding R81, R84). -/
abbrev Word := BitVec 32

/-- An address as a request word carries it, `ADDR_FIELD_BITS` = 17 (00_scope R8, 30_encoding R82). -/
abbrev AddrField := BitVec 17

end Sys2Proof
end

