-- ==== Sys2Proof/Config.lean ====
section
/-! DEFINITION. The parameters of the core (spec/00_scope.md R8) at the values the spec decides, the constraints any
parameter set must meet (R9), and the one value the spec leaves open (the data byte of an error response). -/

namespace Sys2Proof

/-- The eight regions (20_memory R51), in the source's order. `cart` has the role CART, `regs` the role REGS. -/
inductive RegionName where
  | cart | vram | extram | wram | forbidden | oam | regs | stack
  deriving DecidableEq, Repr

/-- The four access policies (20_memory R53). No decided region has `writeIgnored`. -/
inductive Policy where
  | readWrite | readOnly | writeIgnored | forbidden
  deriving DecidableEq, Repr

/-- A row of the region table (20_memory R51). -/
structure Region where
  name   : RegionName
  start  : Nat
  size   : Nat
  policy : Policy
  deriving DecidableEq, Repr

namespace Config

/-- Bytes of the address space (00_scope R8). -/
def totalSize : Nat := 0x10000

/-- The region table (20_memory R51). -/
def regionTable : List Region :=
  [ ⟨.cart,      0x0000, 0x8000, .readOnly⟩,
    ⟨.vram,      0x8000, 0x2000, .readWrite⟩,
    ⟨.extram,    0xA000, 0x2000, .readWrite⟩,
    ⟨.wram,      0xC000, 0x2000, .readWrite⟩,
    ⟨.forbidden, 0xE000, 0x1E00, .forbidden⟩,
    ⟨.oam,       0xFE00, 0x0100, .readWrite⟩,
    ⟨.regs,      0xFF00, 0x0080, .readWrite⟩,
    ⟨.stack,     0xFF80, 0x0080, .readWrite⟩ ]

/-- Size of region CART (00_scope R8). -/
def cartSize : Nat := 0x8000

/-- Start and size of region REGS (00_scope R8). -/
def regBase : Nat := 0xFF00
def regSize : Nat := 0x80

/-- Register-region offsets of the five special registers (00_scope R8, 30_encoding R88). -/
def offJoyp : Nat := 0x00
def offDiv  : Nat := 0x04
def offTima : Nat := 0x05
def offTma  : Nat := 0x06
def offTac  : Nat := 0x07

/-- What a read of the forbidden region returns (00_scope R8, 20_memory R53). -/
def sentinel : Byte := 0x00

/-- Base-clock cycles per timer-counter increment, indexed by TAC[1:0] (00_scope R8, 41_register_bank R146). -/
def rateTable : Vector Nat 4 := #v[1024, 16, 64, 256]

/-- Base-clock cycles per divider increment (00_scope R8, 42_timer R171). -/
def divPeriod : Nat := 256

/-- The data byte r[7:0] of a response whose status is an error: 30_encoding R84 states none ("a READ returns no data",
60_exceptions R211), so it is a FREE VALUE, a function of the recorded number (the address or the image length) that
nothing evaluates. DESIGN CHOICE, log entry 5, safe: a claim holds whatever the byte is. -/
opaque errorData : Nat → Byte

end Config

/-- A parameter set (00_scope R8). -/
structure Params where
  dataBits       : Nat
  totalSize      : Nat
  addrFieldBits  : Nat
  regionTable    : List Region
  cartSize       : Nat
  regBase        : Nat
  regSize        : Nat
  offJoyp        : Nat
  offDiv         : Nat
  offTima        : Nat
  offTma         : Nat
  offTac         : Nat
  sentinel       : Byte
  rateTable      : Vector Nat 4
  divPeriod      : Nat
  cycleFieldBits : Nat
  titleFirst     : Nat
  titleLast      : Nat
  deriving DecidableEq, Repr

/-- Do the rows follow one another from `at_` on without gap or overlap and end at `total`? (00_scope R9) -/
def regionsContiguous (total : Nat) : Nat → List Region → Bool
  | at_, [] => at_ == total
  | at_, r :: rest => r.start == at_ && regionsContiguous total (at_ + r.size) rest

/-- The five register offsets of a parameter set. -/
def Params.offsets (p : Params) : List Nat := [p.offJoyp, p.offDiv, p.offTima, p.offTma, p.offTac]

/-- The constraints of 00_scope R9: contiguous regions from 0 that sum to the total size, one region of each role (with
the base and size the parameters give it, R8), distinct offsets inside the register region, and every period at least 1.
The rate table has four entries by its type: TAC[1:0] indexes it (R8). -/
def Params.valid (p : Params) : Bool :=
  regionsContiguous p.totalSize 0 p.regionTable
  && ((p.regionTable.filter (·.name = .regs)).map fun r => (r.start, r.size)) == [(p.regBase, p.regSize)]
  && ((p.regionTable.filter (·.name = .cart)).map (·.size)) == [p.cartSize]
  && decide p.offsets.Nodup
  && p.offsets.all (· < p.regSize)
  && p.rateTable.toList.all (1 ≤ ·)
  && decide (1 ≤ p.divPeriod)

/-- The parameter set the spec fixes for this hardware (00_scope R8). The machine below is built from these values. -/
def Config.params : Params where
  dataBits       := 8
  totalSize      := Config.totalSize
  addrFieldBits  := 17
  regionTable    := Config.regionTable
  cartSize       := Config.cartSize
  regBase        := Config.regBase
  regSize        := Config.regSize
  offJoyp        := Config.offJoyp
  offDiv         := Config.offDiv
  offTima        := Config.offTima
  offTma         := Config.offTma
  offTac         := Config.offTac
  sentinel       := Config.sentinel
  rateTable      := Config.rateTable
  divPeriod      := Config.divPeriod
  cycleFieldBits := 29
  titleFirst     := 0x0134
  titleLast      := 0x0143

end Sys2Proof
end

