-- ==== Sys2Proof/Syntax.lean ====
section
/-! DEFINITION. The requests of the core and the other rows of spec/opcode_table.json (30_encoding R80, R82, R83, R87):
one constructor per row. -/

namespace Sys2Proof

/-- What a READ or a WRITE does at the address it has decoded: the two façade operations (20_memory R53, R56). -/
inductive Access where
  | read
  | write (v : Byte)
  deriving DecidableEq, Repr

/-- The rows of the opcode table.

The seven requests of 30_encoding R80 take the operands R80 gives them: addresses and cycle counts are `Nat`, wider than
any word carries. `loadCartData i b` is the row LOAD_CART.data, the data word of byte `b` in data position `i`
(log entry 7). `reserved110 x` is the reserved OP 0b110 (R83). An `addr…` constructor is a row of the address decode
table (R87): the access `acc` of a READ or WRITE whose address the row matches, its bits outside the row's mask being the
first operand (log entry 6). -/
inductive Instr where
  -- requests (R80, R82)
  | read (a : Nat)
  | write (a : Nat) (v : Byte)
  | tick (n : Nat)
  | pushButtons (g0 g1 : Nibble)
  | ackTimerIrq
  | loadCart (bytes : List Byte)
  | loadCartData (i : BitVec 15) (b : Byte)
  | reset
  | reserved110 (x : BitVec 29)
  -- address decode rows (R87), in the table's order
  | addrOutOfRange (x : BitVec 16) (acc : Access)
  | addrJoyp (acc : Access)
  | addrDiv (acc : Access)
  | addrTima (acc : Access)
  | addrTma (acc : Access)
  | addrTac (acc : Access)
  | addrRegsPlain (x : BitVec 7) (acc : Access)
  | addrStack (x : BitVec 7) (acc : Access)
  | addrOam (x : BitVec 8) (acc : Access)
  | addrForbiddenE (x : BitVec 12) (acc : Access)
  | addrForbiddenF0 (x : BitVec 11) (acc : Access)
  | addrForbiddenF8 (x : BitVec 10) (acc : Access)
  | addrForbiddenFC (x : BitVec 9) (acc : Access)
  | addrWram (x : BitVec 13) (acc : Access)
  | addrExtram (x : BitVec 13) (acc : Access)
  | addrVram (x : BitVec 13) (acc : Access)
  | addrCart (x : BitVec 15) (acc : Access)
  deriving DecidableEq, Repr

end Sys2Proof
end

