-- ==== Sys2Proof/WellFormed.lean ====
section
/-! DEFINITION. Which instructions have a spelling (spec/30_encoding.md R82, R87). A request whose operand no field can
carry is still a request of R80 and has its meaning; it only has no word. -/

namespace Sys2Proof

/-- The five offsets with a register kind of their own (30_encoding R88). -/
def specialOffsets : List Nat :=
  [Config.offJoyp, Config.offDiv, Config.offTima, Config.offTma, Config.offTac]

/-- An address a request word carries: 17 bits (30_encoding R82). -/
def addressFits (a : Nat) : Bool := decide (a < 2 ^ 17)

/-- A cycle count or an image length a request word carries: 29 bits (30_encoding R82). -/
def countFits (n : Nat) : Bool := decide (n < 2 ^ 29)

/-- The operands fit their fields, and a plain-storage row is not one of the five special offsets, which a row of higher
priority takes (30_encoding R82, R87). -/
def Instr.wellFormed : Instr → Bool
  | .read a => addressFits a
  | .write a _ => addressFits a
  | .tick n => countFits n
  | .pushButtons _ _ => true
  | .ackTimerIrq => true
  | .loadCart bytes => countFits bytes.length
  | .loadCartData _ _ => true
  | .reset => true
  | .reserved110 _ => true
  | .addrOutOfRange _ _ => true
  | .addrJoyp _ => true
  | .addrDiv _ => true
  | .addrTima _ => true
  | .addrTma _ => true
  | .addrTac _ => true
  | .addrRegsPlain x _ => !specialOffsets.contains x.toNat
  | .addrStack _ _ => true
  | .addrOam _ _ => true
  | .addrForbiddenE _ _ => true
  | .addrForbiddenF0 _ _ => true
  | .addrForbiddenF8 _ _ => true
  | .addrForbiddenFC _ _ => true
  | .addrWram _ _ => true
  | .addrExtram _ _ => true
  | .addrVram _ _ => true
  | .addrCart _ _ => true

end Sys2Proof
end

