-- ==== Sys2Proof/Decode.lean ====
section
/-! DEFINITION. The decoder and the encoder (spec/30_encoding.md R81 to R87). A word is read in one of three places:
in request position, in a data position of a LOAD_CART, or, being an address, on the address decoder. The word port has no
byte order (20_memory R56): a word is 32 bits. -/

namespace Sys2Proof

/-- Why a spelling is no request (30_encoding R83). -/
inductive DecodeError where
  /-- The words of the request have not all been presented (R85: a LOAD_CART is 1 + L words). -/
  | incomplete
  /-- `w`, in request position, has a non-zero reserved bit (R83). -/
  | reservedBits (w : Word)
  /-- `w`, in a data position, has non-zero bits 31:8 (R83). -/
  | reservedData (w : Word)
  /-- Words are left over after the request. Raised by `decodeSpelling` only. -/
  | trailing
  deriving DecidableEq, Repr

/-- The field OP (30_encoding R81). -/
def opField (w : Word) : BitVec 3 := w.extractLsb' 29 3

/-- The mask and match of a row of 30_encoding R82. -/
def wordMatches (mask value w : Word) : Bool := w &&& mask == value

/-! ## Request position and data positions (R82, R83) -/

/-- A LOAD_CART data word: its byte, or none where bits 31:8 are not zero (30_encoding R82, R83). -/
def dataByte (w : Word) : Option Byte :=
  if wordMatches 0xFFFFFF00#32 0x00000000#32 w then some (w.extractLsb' 0 8) else none

/-- The `n` data words of a LOAD_CART: their bytes in order, and the words after them. -/
def decodeData : Nat → List Word → Except DecodeError (List Byte × List Word)
  | 0, ws => .ok ([], ws)
  | _ + 1, [] => .error .incomplete
  | n + 1, w :: ws =>
    match dataByte w with
    | none => .error (.reservedData w)
    | some b =>
      match decodeData n ws with
      | .ok (bs, rest) => .ok (b :: bs, rest)
      | .error e => .error e

/-- The request that begins with the first word, and the words after it (30_encoding R82, R83, R85). -/
def decode : List Word → Except DecodeError (Instr × List Word)
  | [] => .error .incomplete
  | w :: rest =>
    if wordMatches 0xE0000FFF#32 0x00000000#32 w then .ok (.read (w.extractLsb' 12 17).toNat, rest)
    else if wordMatches 0xE0000F00#32 0x20000000#32 w then
      .ok (.write (w.extractLsb' 12 17).toNat (w.extractLsb' 0 8), rest)
    else if wordMatches 0xE0000000#32 0x40000000#32 w then .ok (.tick (w.extractLsb' 0 29).toNat, rest)
    else if wordMatches 0xFFFFFF00#32 0x60000000#32 w then
      .ok (.pushButtons (w.extractLsb' 0 4) (w.extractLsb' 4 4), rest)
    else if wordMatches 0xFFFFFFFF#32 0x80000000#32 w then .ok (.ackTimerIrq, rest)
    else if wordMatches 0xE0000000#32 0xA0000000#32 w then
      match decodeData (w.extractLsb' 0 29).toNat rest with
      | .ok (bytes, rest') => .ok (.loadCart bytes, rest')
      | .error e => .error e
    else if wordMatches 0xE0000000#32 0xC0000000#32 w then .ok (.reserved110 (w.extractLsb' 0 29), rest)
    else if wordMatches 0xFFFFFFFF#32 0xE0000000#32 w then .ok (.reset, rest)
    else .error (.reservedBits w)

/-! ## The address decoder (R87) -/

/-- The targets of the address decode table, one for each row (30_encoding R87). -/
inductive Target where
  | outOfRange | joyp | div | tima | tma | tac | regsPlain | stack | oam
  | forbiddenE | forbiddenF0 | forbiddenF8 | forbiddenFC | wram | extram | vram | cart
  deriving DecidableEq, Repr

/-- A row of the address decode table (30_encoding R87). -/
structure AddrRow where
  priority : Nat
  target   : Target
  mask     : AddrField
  value    : AddrField
  deriving DecidableEq, Repr

/-- The address decode table (30_encoding R87), in its order of priority. -/
def addressTable : List AddrRow :=
  [ ⟨1, .outOfRange,  0x10000#17, 0x10000#17⟩,
    ⟨2, .joyp,        0x1FFFF#17, 0x0FF00#17⟩,
    ⟨2, .div,         0x1FFFF#17, 0x0FF04#17⟩,
    ⟨2, .tima,        0x1FFFF#17, 0x0FF05#17⟩,
    ⟨2, .tma,         0x1FFFF#17, 0x0FF06#17⟩,
    ⟨2, .tac,         0x1FFFF#17, 0x0FF07#17⟩,
    ⟨3, .regsPlain,   0x1FF80#17, 0x0FF00#17⟩,
    ⟨3, .stack,       0x1FF80#17, 0x0FF80#17⟩,
    ⟨3, .oam,         0x1FF00#17, 0x0FE00#17⟩,
    ⟨3, .forbiddenE,  0x1F000#17, 0x0E000#17⟩,
    ⟨3, .forbiddenF0, 0x1F800#17, 0x0F000#17⟩,
    ⟨3, .forbiddenF8, 0x1FC00#17, 0x0F800#17⟩,
    ⟨3, .forbiddenFC, 0x1FE00#17, 0x0FC00#17⟩,
    ⟨3, .wram,        0x1E000#17, 0x0C000#17⟩,
    ⟨3, .extram,      0x1E000#17, 0x0A000#17⟩,
    ⟨3, .vram,        0x1E000#17, 0x08000#17⟩,
    ⟨3, .cart,        0x18000#17, 0x00000#17⟩ ]

/-- Does the address match the row? -/
def AddrRow.hits (r : AddrRow) (a : AddrField) : Bool := a &&& r.mask == r.value

/-- The target of an address: the first row that matches (30_encoding R87). -/
def decodeTarget (a : AddrField) : Option Target := (addressTable.find? (·.hits a)).map (·.target)

/-- The row's instruction: the access, and the address bits the row's mask leaves free. -/
def Target.instr (t : Target) (acc : Access) (a : AddrField) : Instr :=
  match t with
  | .outOfRange => .addrOutOfRange (a.extractLsb' 0 16) acc
  | .joyp => .addrJoyp acc
  | .div => .addrDiv acc
  | .tima => .addrTima acc
  | .tma => .addrTma acc
  | .tac => .addrTac acc
  | .regsPlain => .addrRegsPlain (a.extractLsb' 0 7) acc
  | .stack => .addrStack (a.extractLsb' 0 7) acc
  | .oam => .addrOam (a.extractLsb' 0 8) acc
  | .forbiddenE => .addrForbiddenE (a.extractLsb' 0 12) acc
  | .forbiddenF0 => .addrForbiddenF0 (a.extractLsb' 0 11) acc
  | .forbiddenF8 => .addrForbiddenF8 (a.extractLsb' 0 10) acc
  | .forbiddenFC => .addrForbiddenFC (a.extractLsb' 0 9) acc
  | .wram => .addrWram (a.extractLsb' 0 13) acc
  | .extram => .addrExtram (a.extractLsb' 0 13) acc
  | .vram => .addrVram (a.extractLsb' 0 13) acc
  | .cart => .addrCart (a.extractLsb' 0 15) acc

/-- The address decode row an access to `a` takes. It is never none (the table covers every 17-bit address). -/
def decodeAddress (acc : Access) (a : AddrField) : Option Instr := (decodeTarget a).map (·.instr acc a)

/-! ## Spellings -/

/-- Where words are read, and the words. -/
inductive Spelling where
  /-- One whole request, in request position (30_encoding R82). -/
  | request (ws : List Word)
  /-- The word in data position `i` of a LOAD_CART (30_encoding R82). -/
  | data (i : BitVec 15) (w : Word)
  /-- An address on the address decoder, with the access made to it (30_encoding R87). -/
  | address (acc : Access) (a : AddrField)
  deriving DecidableEq, Repr

/-- The instruction a spelling stands for. -/
def decodeSpelling : Spelling → Except DecodeError Instr
  | .request ws =>
    match decode ws with
    | .ok (i, []) => .ok i
    | .ok (_, _ :: _) => .error .trailing
    | .error e => .error e
  | .data i w =>
    match dataByte w with
    | some b => .ok (.loadCartData i b)
    | none => .error (.reservedData w)
  | .address acc a =>
    match decodeAddress acc a with
    | some i => .ok i
    | none => .error .incomplete

/-- A data word (30_encoding R82). -/
def dataWord (b : Byte) : Word := 0#24 ++ b

/-- The spelling of an instruction (30_encoding R82, R87): its words, or its row's address. -/
def encode : Instr → Spelling
  | .read a => .request [0b000#3 ++ BitVec.ofNat 17 a ++ 0#12]
  | .write a v => .request [0b001#3 ++ BitVec.ofNat 17 a ++ 0#4 ++ v]
  | .tick n => .request [0b010#3 ++ BitVec.ofNat 29 n]
  | .pushButtons g0 g1 => .request [0b011#3 ++ 0#21 ++ g1 ++ g0]
  | .ackTimerIrq => .request [0b100#3 ++ 0#29]
  | .loadCart bytes => .request ((0b101#3 ++ BitVec.ofNat 29 bytes.length) :: bytes.map dataWord)
  | .loadCartData i b => .data i (dataWord b)
  | .reset => .request [0b111#3 ++ 0#29]
  | .reserved110 x => .request [0b110#3 ++ x]
  | .addrOutOfRange x acc => .address acc (1#1 ++ x)
  | .addrJoyp acc => .address acc 0x0FF00#17
  | .addrDiv acc => .address acc 0x0FF04#17
  | .addrTima acc => .address acc 0x0FF05#17
  | .addrTma acc => .address acc 0x0FF06#17
  | .addrTac acc => .address acc 0x0FF07#17
  | .addrRegsPlain x acc => .address acc (0b0111111110#10 ++ x)
  | .addrStack x acc => .address acc (0b0111111111#10 ++ x)
  | .addrOam x acc => .address acc (0b011111110#9 ++ x)
  | .addrForbiddenE x acc => .address acc (0b01110#5 ++ x)
  | .addrForbiddenF0 x acc => .address acc (0b011110#6 ++ x)
  | .addrForbiddenF8 x acc => .address acc (0b0111110#7 ++ x)
  | .addrForbiddenFC x acc => .address acc (0b01111110#8 ++ x)
  | .addrWram x acc => .address acc (0b0110#4 ++ x)
  | .addrExtram x acc => .address acc (0b0101#4 ++ x)
  | .addrVram x acc => .address acc (0b0100#4 ++ x)
  | .addrCart x acc => .address acc (0b00#2 ++ x)

/-! ## The assembler syntax (R86)

Text is a list of characters. What is not of the syntax assembles to none; the text fixes no word format, so an operand may be
wider than any word carries (`READ 0x123456`, 95_test_vectors S2). -/

/-- The tokens of a line (30_encoding R86). -/
inductive Token where
  | name (cs : List Char)
  | number (n : Nat)
  | comma
  | openList
  | closeList
  deriving DecidableEq, Repr

/-- The value of a digit, hexadecimal digits in either case. -/
def digitValue (c : Char) : Option Nat :=
  if '0' ≤ c ∧ c ≤ '9' then some (c.toNat - '0'.toNat)
  else if 'a' ≤ c ∧ c ≤ 'f' then some (c.toNat - 'a'.toNat + 10)
  else if 'A' ≤ c ∧ c ≤ 'F' then some (c.toNat - 'A'.toNat + 10)
  else none

/-- The digits `cs` in a base, after digits of value `n`. -/
def digitsFrom (base n : Nat) : List Char → Option Nat
  | [] => some n
  | c :: cs =>
    match digitValue c with
    | some d => if d < base then digitsFrom base (base * n + d) cs else none
    | none => none

/-- A word of the text: a number, decimal or `0x` hex (30_encoding R86), or else a name. -/
def wordToken : List Char → Token
  | [] => .name []
  | '0' :: 'x' :: c :: cs =>
    match digitsFrom 16 0 (c :: cs) with
    | some n => .number n
    | none => .name ('0' :: 'x' :: c :: cs)
  | c :: cs =>
    match digitsFrom 10 0 (c :: cs) with
    | some n => .number n
    | none => .name (c :: cs)

/-- The token of a word that has ended, before the tokens that follow. -/
def endWord (word : List Char) (rest : List Token) : List Token :=
  if word = [] then rest else wordToken word :: rest

/-- The tokens of a line; `word` is the word being read, and `;` starts a comment (30_encoding R86). -/
def tokens (word : List Char) : List Char → List Token
  | [] => endWord word []
  | c :: cs =>
    if c = ';' then endWord word []
    else if c = ' ' ∨ c = '\t' ∨ c = '\r' then endWord word (tokens [] cs)
    else if c = ',' then endWord word (.comma :: tokens [] cs)
    else if c = '[' then endWord word (.openList :: tokens [] cs)
    else if c = ']' then endWord word (.closeList :: tokens [] cs)
    else tokens (word ++ [c]) cs

/-- A number that fits `n` bits. -/
def numeral (n v : Nat) : Option (BitVec n) := if v < 2 ^ n then some (BitVec.ofNat n v) else none

/-- The bytes of a list, up to its end (30_encoding R86). -/
def listItems : List Token → Option (List Byte)
  | [.number v, .closeList] => (numeral 8 v).map ([·])
  | .number v :: .comma :: rest =>
    match numeral 8 v, listItems rest with
    | some b, some bs => some (b :: bs)
    | _, _ => none
  | _ => none

/-- The request a line spells (30_encoding R86). -/
def parseLine : List Token → Option Instr
  | [.name ['R', 'E', 'A', 'D'], .number a] => some (.read a)
  | [.name ['W', 'R', 'I', 'T', 'E'], .number a, .comma, .number v] => (numeral 8 v).map (.write a)
  | [.name ['T', 'I', 'C', 'K'], .number n] => some (.tick n)
  | [.name ['P', 'U', 'S', 'H'], .number g0, .comma, .number g1] =>
    match numeral 4 g0, numeral 4 g1 with
    | some b0, some b1 => some (.pushButtons b0 b1)
    | _, _ => none
  | [.name ['A', 'C', 'K']] => some .ackTimerIrq
  | [.name ['L', 'O', 'A', 'D'], .openList, .closeList] => some (.loadCart [])
  | .name ['L', 'O', 'A', 'D'] :: .openList :: rest => (listItems rest).map .loadCart
  | [.name ['R', 'E', 'S', 'E', 'T']] => some .reset
  | _ => none

/-- The requests of a text, one a line; a line with no token spells none (30_encoding R86). -/
def assembleLines : List (List Char) → Option (List Instr)
  | [] => some []
  | l :: ls =>
    match tokens [] l with
    | [] => assembleLines ls
    | t :: ts =>
      match parseLine (t :: ts), assembleLines ls with
      | some i, some is => some (i :: is)
      | _, _ => none

/-- The lines of a text. -/
def textLines : List Char → List (List Char)
  | [] => [[]]
  | c :: cs =>
    match textLines cs with
    | [] => [[c]]
    | l :: ls => if c = '\n' then [] :: l :: ls else (c :: l) :: ls

/-- The requests of a text (30_encoding R86). -/
def assemble (text : List Char) : Option (List Instr) := assembleLines (textLines text)

/-! ## Rows of the opcode table -/

/-- The READ request word of an address (30_encoding R82). -/
def readWord (a : AddrField) : Word := 0b000#3 ++ a ++ 0#12

/-- The words of a table row whose bits are `w`. A row of the request format (32 bits) is its first word and, after a
LOAD_CART header, as many data words as the header says, taken from the bits above. A row of the address format (17 bits)
is an address: the READ request of that address (DESIGN CHOICE, log entry 6). -/
def tableWords (nbits w : Nat) : List Word :=
  if nbits < 32 then [readWord (BitVec.ofNat 17 w)]
  else
    let first := BitVec.ofNat 32 w
    let operands := if opField first = 0b101#3 then (first.extractLsb' 0 29).toNat else 0
    first :: (List.range operands).map fun k => BitVec.ofNat 32 (w >>> (32 * (k + 1)))

/-- The instruction the decoder reads from a table row whose bits are `w`: the request in request position, or, for a row
of the address format, the row a READ of that address takes. -/
def decodeTableWord (nbits w : Nat) : Option Instr :=
  if nbits < 32 then decodeAddress .read (BitVec.ofNat 17 w)
  else
    match decode (tableWords nbits w) with
    | .ok (i, _) => some i
    | .error _ => none

end Sys2Proof
end

