-- ==== Sys2Proof/Machine/State.lean ====
section
/-! DEFINITION. The state of the core (spec/10_state.md R20 to R33), its interface (00_scope.md R7), the fatal errors
(60_exceptions.md R211, R212) and the model's refusals (R215). -/

namespace Sys2Proof.Machine

/-- The backing store: (address, byte) pairs, addresses strictly rising, no byte equal to what an unlisted address reads
as, 0x00 (10_state R21). -/
abbrev Memory := List Host.Cell

/-- The fatal errors of the core (60_exceptions R210), as the element FAULT records them (10_state R33). A request that
raises one ends in a NEXT state that records it (R211, R212; log entry 3); `step` answers it as a fault when the machine
has halted with it and no request is pending. Safe: the machine stops where a lenient block might go on. -/
inductive Fault where
  /-- OutOfRange(a): raised by a READ or WRITE of an address `a >= 0x10000` (60_exceptions R211). Safe. -/
  | outOfRange (a : Nat)
  /-- CapacityExceeded(n): raised by a LOAD_CART of `n > 0x8000` bytes (60_exceptions R212). Safe. -/
  | capacityExceeded (n : Nat)
  deriving DecidableEq, Repr

/-- What the model gives no meaning (60_exceptions R215): "not behaviours of the core". -/
inductive Refusal where
  /-- An instruction whose meaning is not written yet. Raised by no arm of `exec` now. Safe. -/
  | notModelled (mnemonic : String)
  /-- A request after FAULT was recorded, RESET included (60_exceptions R228). Raised by every instruction and by `step`
  on any pending word. Safe. -/
  | afterFault
  /-- A word of reserved encoding: OP 0b110, or a non-zero reserved bit (30_encoding R83). Raised by `reserved110` and by
  `step` on a word that decodes to no request. Safe: the core's behaviour on it is not specified. -/
  | reservedEncoding (w : Word)
  /-- LOAD_CART, or a data word of one, once STARTED = 1 (43_host_ports R192). Safe: the spec gives it no meaning. -/
  | loadAfterStart
  /-- A parameter set that violates 00_scope R9, "refused at initialization". Raised by `initialState`. Safe. -/
  | invalidParameters
  deriving DecidableEq, Repr

/-- A response: the data byte of a request that completed, or the error status (30_encoding R84). -/
inductive Response where
  | ok (data : Byte)
  | outOfRange (a : Nat)
  | capacityExceeded (n : Nat)
  deriving DecidableEq, Repr

/-- The state of the machine: the tuple of 10_state R20 and the two ports of 00_scope R7. -/
structure State where
  /-- STORE (10_state R21) -/
  store : Memory
  /-- SEL (10_state R23) -/
  sel : BitVec 2
  /-- BTN0, BTN1: active-low button latches (10_state R24) -/
  btn0 : Nibble
  btn1 : Nibble
  /-- DIV (10_state R25) -/
  div : Byte
  /-- DIV_ACC (10_state R26) -/
  divAcc : Nat
  /-- TIMA (10_state R27) -/
  tima : Byte
  /-- TMA (10_state R28) -/
  tma : Byte
  /-- TAC (10_state R29) -/
  tac : Byte
  /-- TACC (10_state R30) -/
  tacc : Nat
  /-- TIRQ (10_state R31) -/
  tirq : Bool
  /-- STARTED (10_state R32) -/
  started : Bool
  /-- FAULT (10_state R33) -/
  fault : Option Fault
  /-- The request port: the words presented and not yet performed, oldest first (00_scope R7, 20_memory R63; entry 1). -/
  port : List Word
  /-- The response port: the last response; none before a request has completed (30_encoding R84; entry 4). -/
  response : Option Response
  deriving DecidableEq, Repr

/-- The state after reset (10_state R20, 70_reset_and_hazards R240), with nothing presented and nothing answered
(DESIGN CHOICE, entries 1 and 4: the spec gives the ports no reset value). -/
def State.reset : State where
  store    := []
  sel      := 0b00#2
  btn0     := 0xF#4
  btn1     := 0xF#4
  div      := 0x00#8
  divAcc   := 0
  tima     := 0x00#8
  tma      := 0x00#8
  tac      := 0x00#8
  tacc     := 0
  tirq     := false
  started  := false
  fault    := none
  port     := []
  response := none

/-- The outcome of a request. -/
abbrev Outcome := Host.Outcome State Fault Refusal

end Sys2Proof.Machine
end

