-- ==== Sys2Proof/Machine/Operands.lean ====
section
/-! DEFINITION. The operand forms: an address as a region (spec/20_memory.md R51, R52), a register offset as a register
kind (30_encoding.md R88, 41_register_bank.md R132), the fields of JOYP (R135 to R137) and of TAC (R146). -/

namespace Sys2Proof.Machine

/-! ## Regions -/

/-- Does the region's span contain the address? -/
def regionContains (r : Region) (a : Nat) : Bool := decide (r.start ≤ a) && decide (a < r.start + r.size)

/-- The region of an address (20_memory R52); none for an address out of range (R50). -/
def resolve (a : Nat) : Option Region :=
  if Config.totalSize ≤ a then none else Config.regionTable.find? fun r => regionContains r a

/-! ## Register kinds -/

/-- The closed set of register kinds (30_encoding R88). -/
inductive RegKind where
  | plainStorage | inputSelect | timerCounter | timerModulo | timerControl | divider
  deriving DecidableEq, Repr

/-- The register dispatch table (30_encoding R88): "unmapped offsets default to plain-storage". -/
def regKind (off : Nat) : RegKind :=
  if off = Config.offJoyp then .inputSelect
  else if off = Config.offDiv then .divider
  else if off = Config.offTima then .timerCounter
  else if off = Config.offTma then .timerModulo
  else if off = Config.offTac then .timerControl
  else .plainStorage

/-! ## The input matrix -/

/-- The multiplexer (41_register_bank R137): a selector bit of 1 selects its group. -/
def mux (sel : BitVec 2) (b0 b1 : Nibble) : Nibble :=
  if sel = 0b00#2 then 0xF#4
  else if sel = 0b01#2 then b0
  else if sel = 0b10#2 then b1
  else b0 &&& b1

/-- The input-select byte: bits 7:6 fixed 1, 5:4 the selector, 3:0 the selected group (41_register_bank R135). -/
def joypByte (sel : BitVec 2) (b0 b1 : Nibble) : Byte := 0b11#2 ++ sel ++ mux sel b0 b1

/-- The selector a write of JOYP keeps: v[5:4] (41_register_bank R136). -/
def selectorOf (v : Byte) : BitVec 2 := v.extractLsb' 4 2

/-! ## Timer control -/

/-- CLK_SEL, TAC[1:0] (10_state R29). -/
def clkSel (tac : Byte) : BitVec 2 := tac.extractLsb' 0 2

/-- enable(TAC) = TAC[2] (41_register_bank R146). -/
def timerEnabled (tac : Byte) : Bool := tac.getLsbD 2

/-- period(TAC) = RATE_TABLE[TAC[1:0]] (41_register_bank R146). -/
def timerPeriod (tac : Byte) : Nat :=
  Config.rateTable[(clkSel tac).toNat]'(clkSel tac).isLt

end Sys2Proof.Machine
end

