-- ==== Sys2Proof/Machine/Ops.lean ====
section
/-! DEFINITION. The operations every meaning is made of: reading and writing the backing store, the named updates of the
state, ending a request with a response, and ending it with a fatal error (the one shared operation in place of an
exception entry: spec/60_exceptions.md R211, R212, R220). There is no return from one (R221, R228). -/

namespace Sys2Proof.Machine

/-! ## The backing store -/

/-- What an unlisted address reads as: the reset contents (10_state R21). -/
def Memory.background : Byte := 0x00

/-- STORE[a] (00_scope R11). -/
def Memory.read : Memory → Nat → Byte
  | [], _ => Memory.background
  | (k, x) :: m, a => if a = k then x else Memory.read m a

/-- The cells `(a, b) :: m`, or `m` where `b` is what an unlisted address reads as. -/
def Memory.cons (a : Nat) (b : Byte) (m : Memory) : Memory := if b = Memory.background then m else (a, b) :: m

/-- STORE[a] <- b (00_scope R11), keeping the canonical form. -/
def Memory.write : Memory → Nat → Byte → Memory
  | [], a, b => Memory.cons a b []
  | (k, x) :: m, a, b =>
    if a < k then Memory.cons a b ((k, x) :: m)
    else if a = k then Memory.cons a b m
    else (k, x) :: Memory.write m a b

/-- STORE[i], STORE[i+1], … <- the bytes in order: the copy loop of 43_host_ports R192. The cells are distinct, so the
order of the writes does not matter; the last is written first. -/
def Memory.load (m : Memory) (i : Nat) : List Byte → Memory
  | [] => m
  | b :: bs => (m.load (i + 1) bs).write i b

/-- Every address is at least `lo`, addresses rise strictly, and no listed byte is the background. -/
def Memory.canonicalFrom : Nat → Memory → Bool
  | _, [] => true
  | lo, (k, x) :: m => decide (lo ≤ k) && decide (x ≠ Memory.background) && Memory.canonicalFrom (k + 1) m

/-- The canonical form, inside the address space (20_memory R50). -/
def Memory.wf (m : Memory) : Bool := Memory.canonicalFrom 0 m && m.all (fun c => decide (c.1 < Config.totalSize))

/-! ## Updates of the state, one for each element a rule writes -/

/-- STORE <- m -/
def State.setStore (s : State) (m : Memory) : State := { s with store := m }

/-- SEL <- x (41_register_bank R136) -/
def State.setSel (s : State) (x : BitVec 2) : State := { s with sel := x }

/-- BTN0 <- g0; BTN1 <- g1 (43_host_ports R190) -/
def State.setButtons (s : State) (g0 g1 : Nibble) : State := { s with btn0 := g0, btn1 := g1 }

/-- DIV <- d; DIV_ACC <- n (41_register_bank R139, 42_timer R171) -/
def State.setDivider (s : State) (d : Byte) (n : Nat) : State := { s with div := d, divAcc := n }

/-- TIMA <- v (41_register_bank R141) -/
def State.setTima (s : State) (v : Byte) : State := { s with tima := v }

/-- TMA <- v (41_register_bank R143) -/
def State.setTma (s : State) (v : Byte) : State := { s with tma := v }

/-- TAC <- v (41_register_bank R145) -/
def State.setTac (s : State) (v : Byte) : State := { s with tac := v }

/-- TACC <- n (42_timer R172) -/
def State.setTacc (s : State) (n : Nat) : State := { s with tacc := n }

/-- TIRQ <- b (42_timer R173, 43_host_ports R191) -/
def State.setTirq (s : State) (b : Bool) : State := { s with tirq := b }

/-- STARTED <- 1 (40_facade R104, 42_timer R170) -/
def State.start (s : State) : State := { s with started := true }

/-- FAULT <- r (60_exceptions R211, R212) -/
def State.setFault (s : State) (r : Fault) : State := { s with fault := some r }

/-- The request port holds `ws`. -/
def State.setPort (s : State) (ws : List Word) : State := { s with port := ws }

/-- The response port holds `r`. -/
def State.setResponse (s : State) (r : Response) : State := { s with response := some r }

/-! ## Ending a request -/

/-- `return v`: the request ends with status OK and data `v` (00_scope R11). -/
def respond (v : Byte) (s : State) : Outcome := .next (s.setResponse (.ok v))

/-- The error status of a fatal error (30_encoding R84). -/
def errorResponse : Fault → Response
  | .outOfRange a => .outOfRange a
  | .capacityExceeded n => .capacityExceeded n

/-- `raise r`: the request ends with its error status and FAULT recorded; nothing else changes (00_scope R11,
60_exceptions R211, R212). -/
def raise (r : Fault) (s : State) : Outcome := .next ((s.setFault r).setResponse (errorResponse r))

/-- `if FAULT != none: refuse(after_fault)`, the first line of every request (60_exceptions R228, R216). -/
def unlessFaulted (s : State) (body : Outcome) : Outcome :=
  match s.fault with
  | some _ => .refused .afterFault
  | none => body

/-! ## The response word -/

/-- The status field r[9:8] (30_encoding R84). -/
def Response.status : Response → BitVec 2
  | .ok _ => 0b00#2
  | .outOfRange _ => 0b01#2
  | .capacityExceeded _ => 0b10#2

/-- The data field r[7:0] (30_encoding R84). With an error status it is the free value of log entry 5. -/
def Response.data : Response → Byte
  | .ok v => v
  | .outOfRange a => Config.errorData a
  | .capacityExceeded n => Config.errorData n

/-- The response word (30_encoding R84). -/
def Response.word (r : Response) : Word := 0#22 ++ r.status ++ r.data

end Sys2Proof.Machine
end

