-- ==== Sys2Proof/Machine/RegisterBank.lean ====
section
/-! DEFINITION. The register bank and the input matrix (spec/41_register_bank.md R130 to R145). -/

namespace Sys2Proof.Machine

/-- STORE[a] of the state's backing store. -/
def storeRead (a : Nat) (s : State) : Byte := s.store.read a

/-- STORE[a] <- v in the state's backing store. -/
def storeWrite (a : Nat) (v : Byte) (s : State) : State := s.setStore (s.store.write a v)

/-- JoypRead() (R135). -/
def joypRead (s : State) : Byte := joypByte s.sel s.btn0 s.btn1

/-- The input-select write (R136). -/
def joypWrite (v : Byte) (s : State) : State := s.setSel (selectorOf v)

/-- The divider write: the value is discarded, the prescaler cleared (R139). -/
def dividerWrite (_v : Byte) (s : State) : State := s.setDivider 0x00#8 0

/-- RegRead(off) (R130, R133, R135, R138, R140, R142, R144). -/
def regRead (off : Nat) (s : State) : Byte :=
  match regKind off with
  | .inputSelect => joypRead s
  | .divider => s.div
  | .timerCounter => s.tima
  | .timerModulo => s.tma
  | .timerControl => s.tac
  | .plainStorage => storeRead (Config.regBase + off) s

/-- RegWrite(off, v) (R131, R134, R136, R139, R141, R143, R145). -/
def regWrite (off : Nat) (v : Byte) (s : State) : State :=
  match regKind off with
  | .inputSelect => joypWrite v s
  | .divider => dividerWrite v s
  | .timerCounter => s.setTima v
  | .timerModulo => s.setTma v
  | .timerControl => s.setTac v
  | .plainStorage => storeWrite (Config.regBase + off) v s

end Sys2Proof.Machine
end

