-- ==== Sys2Proof/Machine/Facade.lean ====
section
/-! DEFINITION. The memory access façade: READ and WRITE (spec/40_facade.md R100 to R104). -/

namespace Sys2Proof.Machine

/-- ReadRegion(r, a) (R102). -/
def readRegion (r : Region) (a : Nat) (s : State) : Byte :=
  match r.policy with
  | .forbidden => Config.sentinel
  | .readWrite | .readOnly | .writeIgnored =>
    if r.name = .regs then regRead (a - Config.regBase) s else storeRead a s

/-- A write that changes nothing and reports nothing (60_exceptions R214). -/
def absorb (_v : Byte) (s : State) : State := s

/-- WriteRegion(r, a, v) (R103). -/
def writeRegion (r : Region) (a : Nat) (v : Byte) (s : State) : State :=
  match r.policy with
  | .forbidden | .readOnly | .writeIgnored => absorb v s
  | .readWrite => if r.name = .regs then regWrite (a - Config.regBase) v s else storeWrite a v s

/-- An access to a target that reads by `rd` and writes by `wr`: the read returns its byte, the write returns 0. -/
def access (acc : Access) (rd : State → Byte) (wr : Byte → State → State) (s : State) : Outcome :=
  match acc with
  | .read => respond (rd s) s
  | .write v => respond 0x00#8 (wr v s)

/-- The façade operation of an access: STARTED is set before the bounds check (R104), then the address is resolved and the
access dispatched (R100, R101). -/
def facade (acc : Access) (a : Nat) (s : State) : Outcome :=
  unlessFaulted s <|
    match resolve a with
    | none => raise (.outOfRange a) s.start
    | some r => access acc (readRegion r a) (writeRegion r a) s.start

/-- READ a (R100). -/
def execRead (a : Nat) (s : State) : Outcome := facade .read a s

/-- WRITE a v (R101). -/
def execWrite (a : Nat) (v : Byte) (s : State) : Outcome := facade (.write v) a s

end Sys2Proof.Machine
end

