-- ==== Sys2Proof/Machine/AddressRows.lean ====
section
/-! DEFINITION. The rows of the address decode table (spec/30_encoding.md R87): what a READ or WRITE does once its address
has taken a row. They are written from the table and the rules the rows name, not from the region table, so that the
façade and the table can be held against each other. Log entry 6. -/

namespace Sys2Proof.Machine

/-- The access of a row that is not out of range, in a READ or WRITE: after a fault refused, STARTED set (40_facade R100,
R101, R104). -/
def rowAccess (acc : Access) (rd : State → Byte) (wr : Byte → State → State) (s : State) : Outcome :=
  unlessFaulted s (access acc rd wr s.start)

/-- A row of plain RAM whose addresses begin at `base` (40_facade R102, R103, policy RW). -/
def ramRow (base off : Nat) (acc : Access) (s : State) : Outcome :=
  rowAccess acc (storeRead (base + off)) (storeWrite (base + off)) s

/-- A row of the forbidden region (40_facade R102, R103, policy FORBIDDEN). -/
def forbiddenRow (acc : Access) (s : State) : Outcome :=
  rowAccess acc (fun _ => Config.sentinel) absorb s

/-- ADDR.OUT_OF_RANGE: addresses 0x10000 + x (60_exceptions R211). -/
def execAddrOutOfRange (x : BitVec 16) (_acc : Access) (s : State) : Outcome :=
  unlessFaulted s (raise (.outOfRange (0x10000 + x.toNat)) s.start)

/-- ADDR.JOYP, 0xFF00 (41_register_bank R135, R136). -/
def execAddrJoyp (acc : Access) (s : State) : Outcome := rowAccess acc joypRead joypWrite s

/-- ADDR.DIV, 0xFF04 (41_register_bank R138, R139). -/
def execAddrDiv (acc : Access) (s : State) : Outcome := rowAccess acc State.div dividerWrite s

/-- ADDR.TIMA, 0xFF05 (41_register_bank R140, R141). -/
def execAddrTima (acc : Access) (s : State) : Outcome :=
  rowAccess acc State.tima (fun v t => t.setTima v) s

/-- ADDR.TMA, 0xFF06 (41_register_bank R142, R143). -/
def execAddrTma (acc : Access) (s : State) : Outcome :=
  rowAccess acc State.tma (fun v t => t.setTma v) s

/-- ADDR.TAC, 0xFF07 (41_register_bank R144, R145). -/
def execAddrTac (acc : Access) (s : State) : Outcome :=
  rowAccess acc State.tac (fun v t => t.setTac v) s

/-- ADDR.REGS_PLAIN, 0xFF00 + x: plain storage (41_register_bank R133, R134). An `x` that is one of the five special
offsets takes the row of higher priority (30_encoding R87; log entry 8). -/
def execAddrRegsPlain (x : BitVec 7) (acc : Access) (s : State) : Outcome :=
  rowAccess acc (regRead x.toNat) (regWrite x.toNat) s

/-- ADDR.STACK, 0xFF80 + x. -/
def execAddrStack (x : BitVec 7) (acc : Access) (s : State) : Outcome := ramRow 0xFF80 x.toNat acc s

/-- ADDR.OAM, 0xFE00 + x. -/
def execAddrOam (x : BitVec 8) (acc : Access) (s : State) : Outcome := ramRow 0xFE00 x.toNat acc s

/-- ADDR.FORBIDDEN, 0xE000 + x. -/
def execAddrForbiddenE (_x : BitVec 12) (acc : Access) (s : State) : Outcome := forbiddenRow acc s

/-- ADDR.FORBIDDEN, 0xF000 + x. -/
def execAddrForbiddenF0 (_x : BitVec 11) (acc : Access) (s : State) : Outcome := forbiddenRow acc s

/-- ADDR.FORBIDDEN, 0xF800 + x. -/
def execAddrForbiddenF8 (_x : BitVec 10) (acc : Access) (s : State) : Outcome := forbiddenRow acc s

/-- ADDR.FORBIDDEN, 0xFC00 + x. -/
def execAddrForbiddenFC (_x : BitVec 9) (acc : Access) (s : State) : Outcome := forbiddenRow acc s

/-- ADDR.WRAM, 0xC000 + x. -/
def execAddrWram (x : BitVec 13) (acc : Access) (s : State) : Outcome := ramRow 0xC000 x.toNat acc s

/-- ADDR.EXTRAM, 0xA000 + x. -/
def execAddrExtram (x : BitVec 13) (acc : Access) (s : State) : Outcome := ramRow 0xA000 x.toNat acc s

/-- ADDR.VRAM, 0x8000 + x. -/
def execAddrVram (x : BitVec 13) (acc : Access) (s : State) : Outcome := ramRow 0x8000 x.toNat acc s

/-- ADDR.CART, x: read-only (20_memory R53). -/
def execAddrCart (x : BitVec 15) (acc : Access) (s : State) : Outcome :=
  rowAccess acc (storeRead x.toNat) absorb s

end Sys2Proof.Machine
end

