-- ==== Sys2Proof/Machine/Flags.lean ====
section
/-! DEFINITION. The only status flag of the core, TIRQ (spec/10_state.md R36): raised by a counter overflow
(42_timer.md R173), cleared by the acknowledge (43_host_ports.md R191), driven on `timer_irq` (R193). -/

namespace Sys2Proof.Machine

/-- TIRQ <- 1 (42_timer R173). -/
def raiseTirq (s : State) : State := s.setTirq true

/-- TIRQ <- 0 (43_host_ports R191). -/
def clearTirq (s : State) : State := s.setTirq false

/-- The output `timer_irq` (43_host_ports R193). -/
def timerIrq (s : State) : Bool := s.tirq

/-- CounterIncrement(): the counter's increment, its reload from the modulo and the flag (42_timer R173). -/
def counterIncrement (s : State) : State :=
  if s.tima = 0xFF#8 then raiseTirq (s.setTima s.tma) else s.setTima (s.tima + 1#8)

/-- `k` calls of CounterIncrement (42_timer R172). -/
def counterIncrements : Nat → State → State
  | 0, s => s
  | k + 1, s => counterIncrements k (counterIncrement s)

end Sys2Proof.Machine
end

