-- ==== Sys2Proof/Machine/HostPorts.lean ====
section
/-! DEFINITION. The host ports: PUSH_BUTTONS, ACK_TIMER_IRQ and LOAD_CART (spec/43_host_ports.md R190 to R192). -/

namespace Sys2Proof.Machine

/-- PUSH_BUTTONS g0 g1 (R190). -/
def execPushButtons (g0 g1 : Nibble) (s : State) : Outcome :=
  unlessFaulted s (respond 0x00#8 (s.setButtons g0 g1))

/-- ACK_TIMER_IRQ (R191). -/
def execAckTimerIrq (s : State) : Outcome := unlessFaulted s (respond 0x00#8 (clearTirq s))

/-- `if STARTED = 1: refuse(load_after_start)` (R192). -/
def unlessStarted (s : State) (body : Outcome) : Outcome :=
  if s.started then .refused .loadAfterStart else body

/-- LOAD_CART bytes (R192): the capacity check, then the copy from address 0. -/
def execLoadCart (bytes : List Byte) (s : State) : Outcome :=
  unlessFaulted s <| unlessStarted s <|
    if Config.cartSize < bytes.length then raise (.capacityExceeded bytes.length) s
    else respond 0x00#8 (s.setStore (s.store.load 0 bytes))

/-- LOAD_CART.data: the byte of data position `i`, STORE[i] <- b, the body of R192's copy loop (log entry 7). -/
def execLoadCartData (i : BitVec 15) (b : Byte) (s : State) : Outcome :=
  unlessFaulted s <| unlessStarted s <| respond 0x00#8 (s.setStore (s.store.write i.toNat b))

end Sys2Proof.Machine
end

