-- ==== Sys2Proof/Machine/System.lean ====
section
/-! DEFINITION. RESET (spec/70_reset_and_hazards.md R240), the reserved OP (30_encoding.md R83), and the check of the
parameters at initialization (00_scope.md R9). -/

namespace Sys2Proof.Machine

/-- RESET (R240): every state element takes its reset value. The words still on the request port stay there: they are
requests not yet performed (20_memory R63; log entry 10). -/
def execReset (s : State) : Outcome :=
  unlessFaulted s (respond 0x00#8 (State.reset.setPort s.port))

/-- A word with OP 0b110 spells no request (30_encoding R83); a fault already recorded is decided first (60_exceptions
R216). -/
def execReserved110 (x : BitVec 29) (s : State) : Outcome :=
  unlessFaulted s (.refused (.reservedEncoding (0b110#3 ++ x)))

/-- Initialization with a parameter set: one that violates 00_scope R9 is refused (60_exceptions R215). The reset state
does not depend on the parameters. -/
def initialState (p : Params) : Outcome :=
  if p.valid then .next State.reset else .refused .invalidParameters

end Sys2Proof.Machine
end

