-- ==== Sys2Proof/Machine/Timer.lean ====
section
/-! DEFINITION. The timer subsystem: TICK (spec/42_timer.md R170 to R173), by the closed forms R171 and R172 give beside
their loops. -/

namespace Sys2Proof.Machine

/-- DividerAdvance(n) (R171): with `t = DIV_ACC + n`, DIV advances by `t div DIV_PERIOD` modulo 256. -/
def dividerAdvance (n : Nat) (s : State) : State :=
  let t := s.divAcc + n
  s.setDivider (s.div + BitVec.ofNat 8 (t / Config.divPeriod)) (t % Config.divPeriod)

/-- TimerAdvance(n) (R172): `(TACC + n) div N` crossings, each an increment if the timer is enabled. -/
def timerAdvance (n : Nat) (s : State) : State :=
  let t := s.tacc + n
  let rest := s.setTacc (t % timerPeriod s.tac)
  if timerEnabled s.tac then counterIncrements (t / timerPeriod s.tac) rest else rest

/-- TICK n (R170). -/
def execTick (n : Nat) (s : State) : Outcome :=
  unlessFaulted s (respond 0x00#8 (timerAdvance n (dividerAdvance n s.start)))

/-! ## The loops of R171 and R172

The rules' own pseudocode, with fuel for the loop: what the closed forms above are held against. -/

/-- The while loop of DividerAdvance (R171). -/
def dividerLoop : Nat → State → State
  | 0, s => s
  | fuel + 1, s =>
    if Config.divPeriod ≤ s.divAcc then
      dividerLoop fuel (s.setDivider (s.div + 1#8) (s.divAcc - Config.divPeriod))
    else s

/-- The while loop of TimerAdvance (R172); `N` and `E` are those of TAC at the start of the TICK. -/
def timerLoop (N : Nat) (E : Bool) : Nat → State → State
  | 0, s => s
  | fuel + 1, s =>
    if N ≤ s.tacc then
      let t := s.setTacc (s.tacc - N)
      timerLoop N E fuel (if E then counterIncrement t else t)
    else s

end Sys2Proof.Machine
end

