-- ==== Sys2Proof/Machine/Dispatch.lean ====
section
/-! DEFINITION. The dispatch of an instruction to its meaning: one arm for each row of spec/opcode_table.json. -/

namespace Sys2Proof.Machine

def exec (i : Instr) (s : State) : Host.Outcome State Fault Refusal :=
  match i with
  | .read a => Sys2Proof.Machine.execRead a s
  | .write a v => Sys2Proof.Machine.execWrite a v s
  | .tick n => Sys2Proof.Machine.execTick n s
  | .pushButtons g0 g1 => Sys2Proof.Machine.execPushButtons g0 g1 s
  | .ackTimerIrq => Sys2Proof.Machine.execAckTimerIrq s
  | .loadCart bytes => Sys2Proof.Machine.execLoadCart bytes s
  | .loadCartData p b => Sys2Proof.Machine.execLoadCartData p b s
  | .reset => Sys2Proof.Machine.execReset s
  | .reserved110 x => Sys2Proof.Machine.execReserved110 x s
  | .addrOutOfRange x acc => Sys2Proof.Machine.execAddrOutOfRange x acc s
  | .addrJoyp acc => Sys2Proof.Machine.execAddrJoyp acc s
  | .addrDiv acc => Sys2Proof.Machine.execAddrDiv acc s
  | .addrTima acc => Sys2Proof.Machine.execAddrTima acc s
  | .addrTma acc => Sys2Proof.Machine.execAddrTma acc s
  | .addrTac acc => Sys2Proof.Machine.execAddrTac acc s
  | .addrRegsPlain x acc => Sys2Proof.Machine.execAddrRegsPlain x acc s
  | .addrStack x acc => Sys2Proof.Machine.execAddrStack x acc s
  | .addrOam x acc => Sys2Proof.Machine.execAddrOam x acc s
  | .addrForbiddenE x acc => Sys2Proof.Machine.execAddrForbiddenE x acc s
  | .addrForbiddenF0 x acc => Sys2Proof.Machine.execAddrForbiddenF0 x acc s
  | .addrForbiddenF8 x acc => Sys2Proof.Machine.execAddrForbiddenF8 x acc s
  | .addrForbiddenFC x acc => Sys2Proof.Machine.execAddrForbiddenFC x acc s
  | .addrWram x acc => Sys2Proof.Machine.execAddrWram x acc s
  | .addrExtram x acc => Sys2Proof.Machine.execAddrExtram x acc s
  | .addrVram x acc => Sys2Proof.Machine.execAddrVram x acc s
  | .addrCart x acc => Sys2Proof.Machine.execAddrCart x acc s

end Sys2Proof.Machine
end

