-- ==== Sys2Proof/Machine/Fetch.lean ====
section
/-! DEFINITION. Taking the next request off the request port (spec/00_scope.md R6, 30_encoding.md R81 to R85,
60_exceptions.md R216, R228). The core has no program counter (10_state.md R35). -/

namespace Sys2Proof.Machine

/-- What the request port gives the core. -/
inductive Fetched where
  /-- Nothing is presented: the core is idle (60_exceptions R227). -/
  | idle
  /-- Nothing is presented and the core has halted (60_exceptions R228). -/
  | halted (r : Fault)
  /-- A request is presented after a fault (60_exceptions R228). -/
  | afterFault
  /-- The words of the request have not all been presented (log entry 2). -/
  | waiting
  /-- A word that spells no request (30_encoding R83). -/
  | reserved (w : Word)
  /-- The next request, and the words after it. -/
  | request (i : Instr) (rest : List Word)
  deriving DecidableEq, Repr

/-- The next request of a port, with no fault recorded. -/
def fetchRequest (port : List Word) : Fetched :=
  match port with
  | [] => .idle
  | _ :: _ =>
    match decode port with
    | .ok (i, rest) => .request i rest
    | .error (.reservedBits w) => .reserved w
    | .error (.reservedData w) => .reserved w
    | .error .incomplete => .waiting
    | .error .trailing => .waiting

/-- The next request of the state; a fault already recorded is decided first (60_exceptions R216). -/
def fetch (s : State) : Fetched :=
  match s.fault with
  | none => fetchRequest s.port
  | some r => if s.port = [] then .halted r else .afterFault

end Sys2Proof.Machine
end

