-- ==== Sys2Proof/Machine/Step.lean ====
section
/-! DEFINITION. One step of the machine: the request the port gives, performed (spec/00_scope.md R6, 20_memory.md R58). -/

namespace Sys2Proof.Machine

/-- One step. With nothing presented, or a request not yet whole, the core keeps its whole state (60_exceptions R227);
halted with nothing presented, the step answers the recorded fault. -/
def step (s : State) : Host.Outcome State Fault Refusal :=
  match fetch s with
  | .idle => .next s
  | .waiting => .next s
  | .halted r => .fault r
  | .afterFault => .refused .afterFault
  | .reserved w => .refused (.reservedEncoding w)
  | .request i rest => exec i (s.setPort rest)

/-- The state with a table row's words presented on the request port, before anything presented already. -/
def State.withFetchWord (s : State) (nbits w : Nat) : State := s.setPort (tableWords nbits w ++ s.port)

end Sys2Proof.Machine
end

