-- ==== Sys2Proof/Safety.lean ====
section
/-! DEFINITION. The terms claims are made in: the invariant of the machine, the addresses a request can store to, and runs
of several requests. -/

namespace Sys2Proof.Machine

/-! ## The invariant -/

/-- The addresses whose byte of STORE some request reads or writes: all but region FORBIDDEN and the five special
registers (10_state R22). -/
def backed (a : Nat) : Bool :=
  decide (a < 0xE000) || (decide (0xFE00 ≤ a) && decide (a < 0x10000)
    && !([0xFF00, 0xFF04, 0xFF05, 0xFF06, 0xFF07].contains a))

/-- What a fault record says is an error: an address out of range, an image too long (60_exceptions R211, R212). -/
def Fault.genuine : Fault → Prop
  | .outOfRange a => 0x10000 ≤ a
  | .capacityExceeded n => 0x8000 < n

/-- What STARTED is when FAULT records the error: 1 after a READ or WRITE (40_facade R104), 0 at a LOAD_CART
(43_host_ports R192). -/
def Fault.startedThen : Fault → Bool
  | .outOfRange _ => true
  | .capacityExceeded _ => false

/-- The invariant of the machine. -/
structure Inv (s : State) : Prop where
  /-- The store is in canonical form, inside the address space (20_memory R50). -/
  store_wf : s.store.wf = true
  /-- No request has stored to a byte that no request reaches (10_state R22). -/
  store_backed : ∀ c ∈ s.store, backed c.1 = true
  /-- DIV_ACC < DIV_PERIOD (10_state R26). -/
  divAcc_lt : s.divAcc < 256
  /-- TACC < max(RATE_TABLE) (10_state R30). -/
  tacc_lt : s.tacc < 1024
  /-- FAULT records only genuine errors (10_state R33). -/
  fault_genuine : ∀ r, s.fault = some r → r.genuine
  /-- FAULT and STARTED agree on which request failed. -/
  fault_started : ∀ r, s.fault = some r → s.started = r.startedThen

/-! ## Instructions by what they may do -/

/-- The façade request of an access to an address (40_facade R100, R101). -/
def accessRequest (acc : Access) (a : Nat) : Instr :=
  match acc with
  | .read => .read a
  | .write v => .write a v

/-- The address and the access of a READ, a WRITE or an address decode row; none for the other instructions. -/
def accessOf : Instr → Option (Access × Nat)
  | .read a => some (.read, a)
  | .write a v => some (.write v, a)
  | .addrOutOfRange x acc => some (acc, 0x10000 + x.toNat)
  | .addrJoyp acc => some (acc, 0xFF00)
  | .addrDiv acc => some (acc, 0xFF04)
  | .addrTima acc => some (acc, 0xFF05)
  | .addrTma acc => some (acc, 0xFF06)
  | .addrTac acc => some (acc, 0xFF07)
  | .addrRegsPlain x acc => some (acc, 0xFF00 + x.toNat)
  | .addrStack x acc => some (acc, 0xFF80 + x.toNat)
  | .addrOam x acc => some (acc, 0xFE00 + x.toNat)
  | .addrForbiddenE x acc => some (acc, 0xE000 + x.toNat)
  | .addrForbiddenF0 x acc => some (acc, 0xF000 + x.toNat)
  | .addrForbiddenF8 x acc => some (acc, 0xF800 + x.toNat)
  | .addrForbiddenFC x acc => some (acc, 0xFC00 + x.toNat)
  | .addrWram x acc => some (acc, 0xC000 + x.toNat)
  | .addrExtram x acc => some (acc, 0xA000 + x.toNat)
  | .addrVram x acc => some (acc, 0x8000 + x.toNat)
  | .addrCart x acc => some (acc, x.toNat)
  | .tick _ => none
  | .pushButtons _ _ => none
  | .ackTimerIrq => none
  | .loadCart _ => none
  | .loadCartData _ _ => none
  | .reset => none
  | .reserved110 _ => none

/-- Does the instruction write the address `a`? -/
def writesTo (i : Instr) (a : Nat) : Prop := ∃ v, accessOf i = some (.write v, a)

/-- Does the instruction end the initialization phase: a READ, WRITE or TICK (10_state R32)? -/
def startsOperation (i : Instr) : Prop := (accessOf i).isSome = true ∨ ∃ n, i = .tick n

/-- The addresses an instruction stores a byte of STORE to: a WRITE to a RAM region or a plain-storage register
(40_facade R103, 41_register_bank R134), the positions of a LOAD_CART (43_host_ports R192), every address for RESET. -/
def storesTo (i : Instr) (a : Nat) : Prop :=
  (writesTo i a ∧ 0x8000 ≤ a ∧ backed a = true)
  ∨ (∃ bytes, i = .loadCart bytes ∧ a < bytes.length)
  ∨ (∃ p b, i = .loadCartData p b ∧ a = p.toNat)
  ∨ i = .reset

/-! ## Runs -/

/-- The instructions in order, each on the state the one before it left. -/
def runAll : List Instr → State → Outcome
  | [], s => .next s
  | i :: is, s =>
    match exec i s with
    | .next t => runAll is t
    | .fault r => .fault r
    | .refused r => .refused r

/-- The words of a request; none for an instruction that is no request of 30_encoding R82. -/
def requestWords (i : Instr) : Option (List Word) :=
  match encode i with
  | .request ws => some ws
  | .data _ _ => none
  | .address _ _ => none

/-- The words of a sequence of requests, in order of issue (20_memory R63). -/
def requestStream : List Instr → List Word
  | [] => []
  | i :: is => (requestWords i).getD [] ++ requestStream is

end Sys2Proof.Machine
end

