-- ==== Sys2Proof/Certificates/Slice0/Obligations.lean ====
section
/-! DEFINITION. The statements for the provers. Each docstring names the rules of spec/ it formalises. A statement that
equates `exec i s` with a next state gives the whole next state, so it is also the completion of `i` and its frame: every
field not set in it is the field of `s`. -/

open Sys2Proof Sys2Proof.Machine

/-! ## Reset and parameters -/

/-- 70_reset_and_hazards R240: RESET gives every state element its reset value, from every state with no fault recorded.
The words still presented stay presented (the model's choice, log entry 10). -/
def Obligations.ResetInitializesEveryElement : Prop :=
  ∀ s : State, s.fault = none →
    exec .reset s = .next
      { store := [], sel := 0b00#2, btn0 := 0xF#4, btn1 := 0xF#4, div := 0#8, divAcc := 0, tima := 0#8, tma := 0#8,
        tac := 0#8, tacc := 0, tirq := false, started := false, fault := none, port := s.port,
        response := some (.ok 0#8) }

/-- 10_state R20 and R37, 70_reset_and_hazards R240: right after reset JOYP reads 0xCF and every other valid address reads
0x00, and `timer_irq` is 0. -/
def Obligations.ReadsRightAfterReset : Prop :=
  timerIrq State.reset = false ∧
  ∀ a, a < 0x10000 →
    exec (.read a) State.reset = .next
      { State.reset with started := true, response := some (.ok (if a = 0xFF00 then 0xCF#8 else 0x00#8)) }

/-- 00_scope R9, 60_exceptions R215: a parameter set is refused at initialization exactly when it violates a constraint of
R9, with the base and sizes R8 gives the two regions of a role; the decided set violates none. That every other set gives
one and the same reset state, whatever its parameters, is the model's choice (log entry 13). -/
def Obligations.ParametersAreCheckedAtInitialization : Prop :=
  let meets (p : Params) : Prop :=
    -- the regions follow one another from 0 on, and their sizes sum to the total
    (∀ k (h : k < p.regionTable.length),
      (p.regionTable[k]).start = ((p.regionTable.take k).map Region.size).sum) ∧
    (p.regionTable.map Region.size).sum = p.totalSize ∧
    -- one region with the role REGS and one with the role CART
    (p.regionTable.map Region.name).count .regs = 1 ∧
    (p.regionTable.map Region.name).count .cart = 1 ∧
    (∀ r ∈ p.regionTable, r.name = .regs → r.start = p.regBase ∧ r.size = p.regSize) ∧
    (∀ r ∈ p.regionTable, r.name = .cart → r.size = p.cartSize) ∧
    -- five distinct offsets inside the register region
    [p.offJoyp, p.offDiv, p.offTima, p.offTma, p.offTac].Nodup ∧
    (∀ off ∈ [p.offJoyp, p.offDiv, p.offTima, p.offTma, p.offTac], off < p.regSize) ∧
    -- every period is at least 1
    (∀ k (h : k < 4), 1 ≤ p.rateTable[k]) ∧ 1 ≤ p.divPeriod
  meets Config.params ∧
  (∀ p : Params, ¬ meets p → initialState p = .refused .invalidParameters) ∧
  (∀ p : Params, meets p → initialState p = .next State.reset)

/-! ## The invariant -/

/-- The state right after reset meets the invariant (10_state R20, R26, R30). -/
def Obligations.ResetStateMeetsTheInvariant : Prop := Inv State.reset

/-- Every step keeps the invariant: the store stays canonical and holds no byte that no request reaches (10_state R22),
DIV_ACC stays below the divider period (R26), TACC below the longest timer period (R30), and FAULT records genuine errors
only (R33). -/
def Obligations.EveryStepKeepsTheInvariant : Prop :=
  ∀ s t : State, Inv s → step s = .next t → Inv t

/-! ## READ -/

/-- 40_facade R100, R102, R104, 41_register_bank R130: a READ of a valid address returns the byte of its region and changes
no state but STARTED. -/
def Obligations.ReadReturnsTheByteOfItsRegion : Prop :=
  ∀ (s : State) (a : Nat), s.fault = none → a < 0x10000 →
    exec (.read a) s = .next { s with
      started := true
      response := some (.ok (
        if 0xE000 ≤ a ∧ a < 0xFE00 then 0x00#8
        else if a = 0xFF00 then joypByte s.sel s.btn0 s.btn1
        else if a = 0xFF04 then s.div
        else if a = 0xFF05 then s.tima
        else if a = 0xFF06 then s.tma
        else if a = 0xFF07 then s.tac
        else s.store.read a)) }

/-- 41_register_bank R137: the multiplexer; and R135: the bits of the input-select byte. -/
def Obligations.JoypReadMultiplexesTheButtons : Prop :=
  (∀ b0 b1 : Nibble, mux 0b00#2 b0 b1 = 0xF#4 ∧ mux 0b01#2 b0 b1 = b0 ∧ mux 0b10#2 b0 b1 = b1 ∧
    mux 0b11#2 b0 b1 = b0 &&& b1) ∧
  (∀ s : State, s.fault = none → ∃ v : Byte,
    exec (.read 0xFF00) s = .next { s with started := true, response := some (.ok v) } ∧
    v.extractLsb' 6 2 = 0b11#2 ∧ v.extractLsb' 4 2 = s.sel ∧ v.extractLsb' 0 4 = mux s.sel s.btn0 s.btn1)

/-- 20_memory R59: a READ changes no state element but STARTED, and a second READ of the same address returns the same. -/
def Obligations.ReadsArePureAndIdempotent : Prop :=
  ∀ (s : State) (a : Nat), s.fault = none → a < 0x10000 →
    ∃ t, exec (.read a) s = .next t ∧ exec (.read a) t = .next t ∧
      { t with started := s.started, response := s.response } = s ∧ t.started = true

/-! ## WRITE -/

/-- 40_facade R101, R103, R104, 41_register_bank R131: what a WRITE of a valid address changes, by its region. -/
def Obligations.WriteStoresByItsRegion : Prop :=
  ∀ (s : State) (a : Nat) (v : Byte), s.fault = none → a < 0x10000 →
    exec (.write a v) s = .next
      (let t : State := { s with started := true, response := some (.ok 0#8) }
       if a < 0x8000 then t
       else if 0xE000 ≤ a ∧ a < 0xFE00 then t
       else if a = 0xFF00 then { t with sel := v.extractLsb' 4 2 }
       else if a = 0xFF04 then { t with div := 0#8, divAcc := 0 }
       else if a = 0xFF05 then { t with tima := v }
       else if a = 0xFF06 then { t with tma := v }
       else if a = 0xFF07 then { t with tac := v }
       else { t with store := s.store.write a v })

/-- 70_reset_and_hazards R247, 40_facade R101: a byte written to RAM or to a plain-storage register is what the very next
READ of the address returns, and every other byte of STORE is as before. -/
def Obligations.WrittenByteReadsBackAtOnce : Prop :=
  ∀ (s : State) (a : Nat) (v : Byte), Inv s → s.fault = none → 0x8000 ≤ a → backed a = true →
    ∃ t, exec (.write a v) s = .next t ∧
      exec (.read a) t = .next { t with response := some (.ok v) } ∧
      ∀ x, x ≠ a → t.store.read x = s.store.read x

/-- 20_memory R60: writing one value twice to one address leaves the state of a single write. -/
def Obligations.WritesAreIdempotent : Prop :=
  ∀ (s : State) (a : Nat) (v : Byte), Inv s → s.fault = none → a < 0x10000 →
    ∃ t, exec (.write a v) s = .next t ∧ exec (.write a v) t = .next t

/-- 41_register_bank R139: a WRITE of any value to the divider clears DIV and DIV_ACC and leaves TIMA, TACC and TIRQ; a READ
of it returns 0, and the next increment of DIV comes after 256 further cycles. -/
def Obligations.DividerWriteClears : Prop :=
  ∀ (s : State) (v : Byte), s.fault = none →
    ∃ t, exec (.write 0xFF04 v) s = .next t ∧ t.div = 0#8 ∧ t.divAcc = 0 ∧ t.tima = s.tima ∧ t.tacc = s.tacc ∧
      t.tirq = s.tirq ∧ exec (.read 0xFF04) t = .next { t with response := some (.ok 0#8) } ∧
      (∀ n, n < 256 → ∃ u, exec (.tick n) t = .next u ∧ u.div = 0#8) ∧
      ∃ u, exec (.tick 256) t = .next u ∧ u.div = 1#8

/-! ## OutOfRange -/

/-- 60_exceptions R211: a READ or WRITE of an address out of range, at whatever address, records FAULT = OutOfRange(a), sets
STARTED, responds with status 0b01, and changes nothing else. The row ADDR.OUT_OF_RANGE is the same error at its address
(the row as an instruction is the model's form, log entry 6). -/
def Obligations.OutOfRangeIsRecordedAndReported : Prop :=
  ∀ s : State, s.fault = none →
    let failed (a : Nat) : State :=
      { s with started := true, fault := some (.outOfRange a), response := some (.outOfRange a) }
    (∀ a, 0x10000 ≤ a → exec (.read a) s = .next (failed a) ∧ (Response.outOfRange a).status = 0b01#2) ∧
    (∀ a v, 0x10000 ≤ a → exec (.write a v) s = .next (failed a) ∧ (Response.outOfRange a).status = 0b01#2) ∧
    (∀ x acc, exec (.addrOutOfRange x acc) s = .next (failed (0x10000 + x.toNat)) ∧
      (Response.outOfRange (0x10000 + x.toNat)).status = 0b01#2)

/-- 30_encoding R87, R84, 60_exceptions R211, R228: from every state with no fault recorded the row ADDR.OUT_OF_RANGE
completes, whatever its address bits and its access: STARTED is 1, FAULT the address, the response word carries status 0b01
with bits 31:10 zero, every other element is as before, and every instruction after it is refused. (The row as an
instruction is the model's form, log entry 6.) -/
def Obligations.OutOfRangeRowCompletesAndHalts : Prop :=
  ∀ (s : State) (x : BitVec 16) (acc : Access), s.fault = none →
    ∃ t r, exec (.addrOutOfRange x acc) s = .next t ∧
      t = { s with started := true, fault := some (.outOfRange (0x10000 + x.toNat)), response := some r } ∧
      r.word.extractLsb' 8 2 = 0b01#2 ∧ r.word.extractLsb' 10 22 = 0#22 ∧
      ∀ i, exec i t = .refused .afterFault

/-! ## The rows of the address decode table -/

/-- 30_encoding R87: the rows of priority 3 are pairwise disjoint and together cover 0x0000 to 0xFFFF exactly once, and
every 17-bit address takes a row. -/
def Obligations.EveryAddressTakesOneRow : Prop :=
  (∀ a : AddrField, a.toNat < 0x10000 →
    (addressTable.filter fun r => decide (r.priority = 3) && r.hits a).length = 1) ∧
  (∀ (acc : Access) (a : AddrField), (decodeAddress acc a).isSome = true)

/-- 20_memory R52, 30_encoding R87: the mask and match rows and the region table are the same decoder. A READ or WRITE of
an address is performed by the row the address takes, error and refusal included. (The rows as instructions are the
model's form, log entry 6.) -/
def Obligations.RowsPerformTheFacadeAccess : Prop :=
  ∀ (acc : Access) (a : AddrField) (s : State),
    ∃ i, decodeAddress acc a = some i ∧ exec i s = exec (accessRequest acc a.toNat) s

/-- 40_facade R102, R103, policy RW, 41_register_bank R133, R134: the RAM rows and the plain-storage row read and store the
byte at their address. That a row is an instruction of its own, with a response, is the model's choice (log entry 6). -/
def Obligations.RamRowsAccessTheStore : Prop :=
  ∀ s : State, s.fault = none →
    let reads (i : Instr) (a : Nat) : Prop :=
      exec i s = .next { s with started := true, response := some (.ok (s.store.read a)) }
    let stores (i : Instr) (a : Nat) (v : Byte) : Prop :=
      exec i s = .next { s with started := true, response := some (.ok 0#8), store := s.store.write a v }
    (∀ x, reads (.addrVram x .read) (0x8000 + x.toNat)) ∧ (∀ x v, stores (.addrVram x (.write v)) (0x8000 + x.toNat) v) ∧
    (∀ x, reads (.addrExtram x .read) (0xA000 + x.toNat)) ∧
    (∀ x v, stores (.addrExtram x (.write v)) (0xA000 + x.toNat) v) ∧
    (∀ x, reads (.addrWram x .read) (0xC000 + x.toNat)) ∧ (∀ x v, stores (.addrWram x (.write v)) (0xC000 + x.toNat) v) ∧
    (∀ x, reads (.addrOam x .read) (0xFE00 + x.toNat)) ∧ (∀ x v, stores (.addrOam x (.write v)) (0xFE00 + x.toNat) v) ∧
    (∀ x, reads (.addrStack x .read) (0xFF80 + x.toNat)) ∧ (∀ x v, stores (.addrStack x (.write v)) (0xFF80 + x.toNat) v) ∧
    (∀ x, specialOffsets.contains x.toNat = false → reads (.addrRegsPlain x .read) (0xFF00 + x.toNat)) ∧
    (∀ x v, specialOffsets.contains x.toNat = false → stores (.addrRegsPlain x (.write v)) (0xFF00 + x.toNat) v)

/-- 20_memory R53: the row of the read-only region reads its byte, the rows of the forbidden region read the sentinel, and
both absorb writes with status OK. That a row is an instruction of its own, with a response, is the model's choice (log
entry 6). -/
def Obligations.ReadOnlyAndForbiddenRowsAbsorbWrites : Prop :=
  ∀ s : State, s.fault = none →
    let answers (i : Instr) (v : Byte) : Prop :=
      exec i s = .next { s with started := true, response := some (.ok v) }
    (∀ x, answers (.addrCart x .read) (s.store.read x.toNat)) ∧ (∀ x v, answers (.addrCart x (.write v)) 0#8) ∧
    (∀ x, answers (.addrForbiddenE x .read) 0#8) ∧ (∀ x v, answers (.addrForbiddenE x (.write v)) 0#8) ∧
    (∀ x, answers (.addrForbiddenF0 x .read) 0#8) ∧ (∀ x v, answers (.addrForbiddenF0 x (.write v)) 0#8) ∧
    (∀ x, answers (.addrForbiddenF8 x .read) 0#8) ∧ (∀ x v, answers (.addrForbiddenF8 x (.write v)) 0#8) ∧
    (∀ x, answers (.addrForbiddenFC x .read) 0#8) ∧ (∀ x v, answers (.addrForbiddenFC x (.write v)) 0#8)

/-- 41_register_bank R135, R136, R138 to R145: the rows of the five special registers. That a row is an
instruction of its own, with a response, is the model's choice (log entry 6). -/
def Obligations.SpecialRegisterRowsAccessTheirElement : Prop :=
  ∀ s : State, s.fault = none →
    let t : State := { s with started := true }
    exec (.addrJoyp .read) s = .next { t with response := some (.ok (joypByte s.sel s.btn0 s.btn1)) } ∧
    exec (.addrDiv .read) s = .next { t with response := some (.ok s.div) } ∧
    exec (.addrTima .read) s = .next { t with response := some (.ok s.tima) } ∧
    exec (.addrTma .read) s = .next { t with response := some (.ok s.tma) } ∧
    exec (.addrTac .read) s = .next { t with response := some (.ok s.tac) } ∧
    ∀ v : Byte,
      exec (.addrJoyp (.write v)) s = .next { t with response := some (.ok 0#8), sel := v.extractLsb' 4 2 } ∧
      exec (.addrDiv (.write v)) s = .next { t with response := some (.ok 0#8), div := 0#8, divAcc := 0 } ∧
      exec (.addrTima (.write v)) s = .next { t with response := some (.ok 0#8), tima := v } ∧
      exec (.addrTma (.write v)) s = .next { t with response := some (.ok 0#8), tma := v } ∧
      exec (.addrTac (.write v)) s = .next { t with response := some (.ok 0#8), tac := v }

/-! ## TICK -/

/-- 42_timer R170: TICK sets STARTED, advances the divider and the timer, and responds OK: the next state by the closed
forms of R171 and R172. -/
def Obligations.TickAdvancesDividerAndTimer : Prop :=
  ∀ (s : State) (n : Nat), s.fault = none →
    exec (.tick n) s = .next
      (let N := timerPeriod s.tac
       let u := counterIncrements (if s.tac.getLsbD 2 then (s.tacc + n) / N else 0) s
       { s with
         started := true
         response := some (.ok 0#8)
         div := BitVec.ofNat 8 (s.div.toNat + (s.divAcc + n) / 256)
         divAcc := (s.divAcc + n) % 256
         tacc := (s.tacc + n) % N
         tima := u.tima
         tirq := u.tirq })

/-- 42_timer R173: one counter increment, with the reload and the flag on overflow; nothing else changes. -/
def Obligations.CounterIncrementReloadsOnOverflow : Prop :=
  ∀ s : State,
    (s.tima = 0xFF#8 → counterIncrement s = { s with tima := s.tma, tirq := true }) ∧
    (s.tima ≠ 0xFF#8 → counterIncrement s = { s with tima := s.tima + 1#8 })

/-- 41_register_bank R146: the field decode of TAC. -/
def Obligations.TacFieldsSelectRateAndEnable : Prop :=
  ∀ v : Byte, timerEnabled v = v.getLsbD 2 ∧
    (v.extractLsb' 0 2 = 0b00#2 → timerPeriod v = 1024) ∧
    (v.extractLsb' 0 2 = 0b01#2 → timerPeriod v = 16) ∧
    (v.extractLsb' 0 2 = 0b10#2 → timerPeriod v = 64) ∧
    (v.extractLsb' 0 2 = 0b11#2 → timerPeriod v = 256)

/-- 42_timer R171: the loop of DividerAdvance, run until it ends, is its closed form. -/
def Obligations.DividerLoopIsItsClosedForm : Prop :=
  ∀ (s : State) (n fuel : Nat), s.divAcc + n ≤ fuel →
    dividerLoop fuel { s with divAcc := s.divAcc + n } = dividerAdvance n s ∧
    dividerAdvance n s =
      { s with div := BitVec.ofNat 8 (s.div.toNat + (s.divAcc + n) / 256), divAcc := (s.divAcc + n) % 256 }

/-- 42_timer R172: the loop of TimerAdvance, run until it ends, is its closed form. -/
def Obligations.TimerLoopIsItsClosedForm : Prop :=
  ∀ (s : State) (n fuel : Nat), s.tacc + n ≤ fuel →
    timerLoop (timerPeriod s.tac) (timerEnabled s.tac) fuel { s with tacc := s.tacc + n } = timerAdvance n s ∧
    timerAdvance n s =
      (let rest := { s with tacc := (s.tacc + n) % timerPeriod s.tac }
       if timerEnabled s.tac then counterIncrements ((s.tacc + n) / timerPeriod s.tac) rest else rest)

/-- Derived from 42_timer R173: the counter after `k` increments, without counting them. Up to 0xFF it counts; from the
first overflow on it runs through the values from TMA to 0xFF. -/
def Obligations.ManyIncrementsInOneFormula : Prop :=
  ∀ (s : State) (k : Nat),
    (s.tima.toNat + k < 256 →
      counterIncrements k s = { s with tima := BitVec.ofNat 8 (s.tima.toNat + k) }) ∧
    (256 ≤ s.tima.toNat + k →
      counterIncrements k s = { s with
        tima := BitVec.ofNat 8 (s.tma.toNat + (s.tima.toNat + k - 256) % (256 - s.tma.toNat))
        tirq := true })

/-- 42_timer R176: TICK a followed by TICK b, with nothing but READs between, leaves the state of TICK (a + b). -/
def Obligations.TicksAddUp : Prop :=
  ∀ (s : State) (a b : Nat) (reads : List Nat), s.fault = none → (∀ x ∈ reads, x < 0x10000) →
    runAll (.tick a :: reads.map .read ++ [.tick b]) s = exec (.tick (a + b)) s

/-- 42_timer R175: with the timer enabled and TACC = 0, TICKs that sum to the period increment TIMA once, or reload it and
raise TIRQ; with the timer disabled, any TICKs leave TIMA unchanged. -/
def Obligations.OnePeriodOfTicksIncrementsOnce : Prop :=
  ∀ (s : State) (ns : List Nat), s.fault = none →
    (timerEnabled s.tac = true → s.tacc = 0 → ns.sum = timerPeriod s.tac →
      ∃ t, runAll (ns.map .tick) s = .next t ∧ t.tacc = 0 ∧
        (s.tima ≠ 0xFF#8 → t.tima = s.tima + 1#8 ∧ t.tirq = s.tirq) ∧
        (s.tima = 0xFF#8 → t.tima = s.tma ∧ t.tirq = true)) ∧
    (timerEnabled s.tac = false → ∃ t, runAll (ns.map .tick) s = .next t ∧ t.tima = s.tima)

/-- 70_reset_and_hazards R245, 41_register_bank R145: TACC is kept across a WRITE of TAC, and the next TICK, even TICK 0,
performs TACC div period increments at the new rate, if the new value enables the timer. -/
def Obligations.RateChangeDrainsTheResidue : Prop :=
  ∀ (s : State) (v : Byte), s.fault = none →
    ∃ t u, exec (.write 0xFF07 v) s = .next t ∧ t.tac = v ∧ t.tacc = s.tacc ∧ t.tima = s.tima ∧ t.tirq = s.tirq ∧
      exec (.tick 0) t = .next u ∧ u.tacc = s.tacc % timerPeriod v ∧
      u.tima = (counterIncrements (if timerEnabled v then s.tacc / timerPeriod v else 0) s).tima ∧
      u.tirq = (counterIncrements (if timerEnabled v then s.tacc / timerPeriod v else 0) s).tirq

/-- 10_state R29: bits 7:3 of TAC have no effect on the timer. Two states that differ in those bits alone take the same
TICK. -/
def Obligations.UpperTacBitsDoNotReachTheTimer : Prop :=
  ∀ (s : State) (v w : Byte) (n : Nat), s.fault = none → v.extractLsb' 0 3 = w.extractLsb' 0 3 →
    ∃ t : State, exec (.tick n) { s with tac := v } = .next { t with tac := v } ∧
      exec (.tick n) { s with tac := w } = .next { t with tac := w }

/-! ## Host ports -/

/-- 43_host_ports R190: PUSH_BUTTONS latches both groups and changes nothing else. -/
def Obligations.PushButtonsLatchesBothGroups : Prop :=
  ∀ (s : State) (g0 g1 : Nibble), s.fault = none →
    exec (.pushButtons g0 g1) s = .next { s with btn0 := g0, btn1 := g1, response := some (.ok 0#8) }

/-- 43_host_ports R191, R193: ACK_TIMER_IRQ clears TIRQ, which drives `timer_irq`, and changes nothing else. -/
def Obligations.AcknowledgeClearsTheTimerFlag : Prop :=
  ∀ s : State, s.fault = none →
    exec .ackTimerIrq s = .next { s with tirq := false, response := some (.ok 0#8) } ∧
    timerIrq { s with tirq := false, response := some (.ok 0#8) } = false

/-- 43_host_ports R192: LOAD_CART copies the image to addresses 0 to L-1 and leaves every other byte and element as it
was; after the initialization phase it is refused. -/
def Obligations.LoadCartCopiesTheImage : Prop :=
  ∀ (s : State) (bytes : List Byte), Inv s → s.fault = none →
    (s.started = false → bytes.length ≤ 0x8000 →
      ∃ m : Memory, exec (.loadCart bytes) s = .next { s with store := m, response := some (.ok 0#8) } ∧
        ∀ x, m.read x = if h : x < bytes.length then bytes[x] else s.store.read x) ∧
    (s.started = true → exec (.loadCart bytes) s = .refused .loadAfterStart)

/-- 60_exceptions R212: an image longer than the cartridge region records FAULT = CapacityExceeded(L), responds with status
0b10, copies nothing and changes nothing else. -/
def Obligations.OversizedImageIsRecordedAndReported : Prop :=
  ∀ (s : State) (bytes : List Byte), s.fault = none → s.started = false → 0x8000 < bytes.length →
    exec (.loadCart bytes) s = .next
      { s with fault := some (.capacityExceeded bytes.length), response := some (.capacityExceeded bytes.length) } ∧
    (Response.capacityExceeded bytes.length).status = 0b10#2

/-- The row LOAD_CART.data (43_host_ports R192, the loop body; log entry 7): the byte goes to its position, every other byte
and element is as before; after the initialization phase it is refused. -/
def Obligations.LoadCartDataStoresItsByte : Prop :=
  ∀ (s : State) (i : BitVec 15) (b : Byte), Inv s → s.fault = none →
    (s.started = false → ∃ m : Memory,
      exec (.loadCartData i b) s = .next { s with store := m, response := some (.ok 0#8) } ∧
      ∀ x, m.read x = if x = i.toNat then b else s.store.read x) ∧
    (s.started = true → exec (.loadCartData i b) s = .refused .loadAfterStart)

/-- 43_host_ports R192: LOAD_CART is its copy loop, the data words in order, one position each. That a data word is an
instruction of its own, with a response of its own, is the model's choice (log entry 7). The empty image, which has no
data word, is in `LoadCartCopiesTheImage`. -/
def Obligations.LoadCartIsItsDataWords : Prop :=
  ∀ (s : State) (bytes : List Byte), Inv s → s.fault = none → s.started = false → bytes ≠ [] → bytes.length ≤ 0x8000 →
    runAll (bytes.mapIdx fun i b => .loadCartData (BitVec.ofNat 15 i) b) s = exec (.loadCart bytes) s

/-! ## Refusals and errors -/

/-- 30_encoding R83: a word with OP 0b110 is refused, by name. -/
def Obligations.ReservedOpIsRefused : Prop :=
  ∀ (s : State) (x : BitVec 29), s.fault = none →
    exec (.reserved110 x) s = .refused (.reservedEncoding (0b110#3 ++ x))

/-- 60_exceptions R228: once a fault is recorded every later request, RESET included, is refused, and the fault stays: no
instruction and no step gives a next state. A halted machine with nothing presented answers the fault (the model's choice,
log entry 3; the port: log entry 1). -/
def Obligations.FaultIsFinal : Prop :=
  ∀ (s : State) (r : Fault), s.fault = some r →
    (∀ i, exec i s = .refused .afterFault) ∧
    (s.port ≠ [] → step s = .refused .afterFault) ∧
    (s.port = [] → step s = .fault r)

/-- 60_exceptions R210, R216: with no fault recorded, an instruction records one exactly when it is a READ or WRITE out of
range or a LOAD_CART of an oversized image, and it records that error. -/
def Obligations.OnlyTheTwoErrorsAreRecorded : Prop :=
  ∀ (i : Instr) (s t : State), exec i s = .next t →
    (∀ a, t.fault = some (.outOfRange a) ↔ 0x10000 ≤ a ∧ ∃ acc, accessOf i = some (acc, a)) ∧
    (∀ n, t.fault = some (.capacityExceeded n) ↔ 0x8000 < n ∧ ∃ bytes, i = .loadCart bytes ∧ bytes.length = n)

/-- 60_exceptions R216: a refusal is decided first, in the order fault recorded, reserved encoding, load after start, and
only then the error check. The port that a step takes its words from is the model's choice (log entry 1). -/
def Obligations.RefusalsAreDecidedFirst : Prop :=
  ∀ s : State,
    (∀ r, s.fault = some r → s.port ≠ [] → step s = .refused .afterFault) ∧
    (∀ w rest, s.fault = none → s.port = w :: rest → opField w = 0b110#3 →
      step s = .refused (.reservedEncoding w)) ∧
    (∀ w rest e, s.fault = none → s.port = w :: rest →
      (decode s.port = .error (.reservedBits e) ∨ decode s.port = .error (.reservedData e)) →
      step s = .refused (.reservedEncoding e)) ∧
    (∀ bytes, s.fault = none → s.started = true → exec (.loadCart bytes) s = .refused .loadAfterStart)

/-! ## Rules about the whole machine -/

/-- Derived from 10_state R31, R36 and 42_timer R174: only TICK, ACK_TIMER_IRQ and RESET change TIRQ, and only TICK raises it. -/
def Obligations.TimerFlagChangesOnlyByTickAckReset : Prop :=
  ∀ (i : Instr) (s t : State), exec i s = .next t →
    (t.tirq ≠ s.tirq → (∃ n, i = .tick n) ∨ i = .ackTimerIrq ∨ i = .reset) ∧
    (s.tirq = false → t.tirq = true → ∃ n, i = .tick n)

/-- 10_state R24 and R23: the button latches change only by PUSH_BUTTONS and RESET, the selector only by a write of JOYP and
RESET. -/
def Obligations.InputMatrixChangesOnlyByItsWriters : Prop :=
  ∀ (i : Instr) (s t : State), exec i s = .next t → i ≠ .reset →
    ((t.btn0, t.btn1) ≠ (s.btn0, s.btn1) → ∃ g0 g1, i = .pushButtons g0 g1) ∧
    (t.sel ≠ s.sel → writesTo i 0xFF00)

/-- 40_facade R106: DIV, DIV_ACC, TIMA, TACC and TIRQ change only by TICK, by the writes of DIV and TIMA, by the
acknowledge (TIRQ) and by RESET; in particular no READ and no other WRITE moves them. -/
def Obligations.TimeAdvancesOnlyByTick : Prop :=
  ∀ (i : Instr) (s t : State), exec i s = .next t → i ≠ .reset → (∀ n, i ≠ .tick n) →
    t.tacc = s.tacc ∧
    ((t.div, t.divAcc) ≠ (s.div, s.divAcc) → writesTo i 0xFF04 ∧ t.div = 0#8 ∧ t.divAcc = 0) ∧
    (t.tima ≠ s.tima → writesTo i 0xFF05) ∧
    (t.tirq ≠ s.tirq → i = .ackTimerIrq)

/-- 10_state R27 to R29: TMA changes only by a write of TMA, TAC only by a write of TAC, and by RESET. -/
def Obligations.TimerSetupChangesOnlyByItsWrites : Prop :=
  ∀ (i : Instr) (s t : State), exec i s = .next t → i ≠ .reset →
    (t.tma ≠ s.tma → writesTo i 0xFF06) ∧ (t.tac ≠ s.tac → writesTo i 0xFF07)

/-- 10_state R32: STARTED is set by READ, WRITE and TICK, cleared by RESET, and changed by nothing else. -/
def Obligations.StartedMarksTheFirstAccessOrTick : Prop :=
  ∀ (i : Instr) (s t : State), exec i s = .next t →
    (startsOperation i → t.started = true) ∧
    (i = .reset → t.started = false) ∧
    (¬ startsOperation i → i ≠ .reset → t.started = s.started)

/-- The frame of the backing store (10_state R21, 20_memory R55): an instruction changes no byte but those it stores to. -/
def Obligations.StoreChangesOnlyWhereStoredTo : Prop :=
  ∀ (i : Instr) (s t : State), Inv s → exec i s = .next t →
    ∀ a, ¬ storesTo i a → t.store.read a = s.store.read a

/-- 20_memory R66, R53: only LOAD_CART (and its data words) and RESET change a byte of the cartridge region. -/
def Obligations.CartridgeChangesOnlyByLoading : Prop :=
  ∀ (i : Instr) (s t : State), Inv s → exec i s = .next t → i ≠ .reset →
    (∀ bytes, i ≠ .loadCart bytes) → (∀ p b, i ≠ .loadCartData p b) →
    ∀ a, a < 0x8000 → t.store.read a = s.store.read a

/-! ## Words -/

/-- 30_encoding R84: the fields of the response word. (With an error status the data field is a free value.) -/
def Obligations.ResponseWordFields : Prop :=
  ∀ r : Response, r.word.extractLsb' 10 22 = 0#22 ∧ r.word.extractLsb' 8 2 = r.status ∧
    (∀ v, r = .ok v → r.status = 0b00#2 ∧ r.word.extractLsb' 0 8 = v) ∧
    (∀ a, r = .outOfRange a → r.status = 0b01#2) ∧
    (∀ n, r = .capacityExceeded n → r.status = 0b10#2)

/-- 30_encoding R82: words of the spec's own list (95_test_vectors section 2.5) and what they decode to. -/
def Obligations.SpecWordsDecode : Prop :=
  decode [0x0FF05000#32] = .ok (.read 0xFF05, []) ∧
  decode [0x2FF06080#32] = .ok (.write 0xFF06 0x80#8, []) ∧
  decode [0x4000012C#32] = .ok (.tick 300, []) ∧
  decode [0x6000005A#32] = .ok (.pushButtons 0xA#4 0x5#4, []) ∧
  decode [0x80000000#32] = .ok (.ackTimerIrq, []) ∧
  decode [0xA0000004#32, 0x31#32, 0xFE#32, 0xFF#32, 0xC3#32] = .ok (.loadCart [0x31#8, 0xFE#8, 0xFF#8, 0xC3#8], []) ∧
  decode [0xE0000000#32] = .ok (.reset, []) ∧
  decodeAddress .read 0x0FF80#17 = some (.addrStack 0#7 .read)

/-- 30_encoding R83, R85: a word whose reserved bits are not all zero spells no request, nor does a LOAD_CART data word with
non-zero bits 31:8. -/
def Obligations.ReservedBitsSpellNoRequest : Prop :=
  (∀ (w : Word) (rest : List Word),
    (opField w = 0b000#3 ∧ w.extractLsb' 0 12 ≠ 0#12) ∨ (opField w = 0b001#3 ∧ w.extractLsb' 8 4 ≠ 0#4) ∨
    (opField w = 0b011#3 ∧ w.extractLsb' 8 21 ≠ 0#21) ∨ (opField w = 0b100#3 ∧ w.extractLsb' 0 29 ≠ 0#29) ∨
    (opField w = 0b111#3 ∧ w.extractLsb' 0 29 ≠ 0#29) →
    decode (w :: rest) = .error (.reservedBits w)) ∧
  (∀ (h w : Word) (good : List Byte) (rest : List Word), opField h = 0b101#3 →
    good.length < (h.extractLsb' 0 29).toNat → w.extractLsb' 8 24 ≠ 0#24 →
    decode (h :: good.map dataWord ++ w :: rest) = .error (.reservedData w))

/-- 30_encoding R82, R87: decoding the encoding of a well-formed instruction gives it back, for every row of the opcode
table and every operand. -/
def Obligations.DecodeAfterEncode : Prop :=
  ∀ i : Instr, i.wellFormed = true → decodeSpelling (encode i) = .ok i

/-- 30_encoding R85: a spelling stands for one instruction, which is well-formed and whose encoding it is. -/
def Obligations.EncodeAfterDecode : Prop :=
  ∀ (sp : Spelling) (i : Instr), decodeSpelling sp = .ok i → i.wellFormed = true ∧ encode i = sp

/-! ## Steps -/

/-- 00_scope R6, 20_memory R58: when the words presented begin with a request, one step performs it, on the state whose port
holds the words after it. That the words presented are held on a port, one request taken off it a step and the rest left, is
the model's choice (log entry 1). -/
def Obligations.StepPerformsTheNextRequest : Prop :=
  ∀ (s : State) (i : Instr) (rest : List Word), s.fault = none → decode s.port = .ok (i, rest) →
    step s = exec i { s with port := rest }

/-- 60_exceptions R227: with nothing presented, or with the words of a request not all presented (log entry 2), the core
keeps its whole state. The port is the model's choice (log entry 1). -/
def Obligations.IdleStepKeepsTheState : Prop :=
  ∀ s : State, s.fault = none → s.port = [] ∨ decode s.port = .error .incomplete → step s = .next s

/-- 20_memory R58, R63: a stream of requests is performed one request a step, in the order of issue, with the outcome of
performing them one after another. The port that holds the stream is the model's choice (log entry 1), and so is that a
RESET leaves the requests behind it on the port (log entry 10). -/
def Obligations.StreamIsPerformedInOrder : Prop :=
  ∀ (is : List Instr) (s : State) (rest : List Word),
    (∀ i ∈ is, i.wellFormed = true ∧ (requestWords i).isSome = true) →
    Host.Core.run Sys2Proof.core is.length (s.setPort (requestStream is ++ rest)) = runAll is (s.setPort rest)
end

