-- ==== Sys2Proof/Laws/Decode.lean ====
section
/-! SUPPORT. The masks of the decode tables as statements about fields: a mask of high bits compares the number above them,
the masks of the request words compare OP and the reserved field. -/

namespace Sys2Proof

/-! ## Masks of high bits -/

theorem and_highMask_toNat {n : Nat} (k : Nat) (a : BitVec n) :
    (a &&& (BitVec.allOnes n <<< k)).toNat = a.toNat / 2 ^ k * 2 ^ k := by
  have h : a &&& (BitVec.allOnes n <<< k) = (a >>> k) <<< k := by
    ext i hi
    by_cases hik : i < k
    · simp [hik]
    · simp [hik, show k + (i - k) = i by omega, BitVec.getLsbD_eq_getElem hi]
  rw [h, BitVec.toNat_shiftLeft, BitVec.toNat_ushiftRight, Nat.shiftLeft_eq, Nat.shiftRight_eq_div_pow]
  exact Nat.mod_eq_of_lt (lt_of_le_of_lt (Nat.div_mul_le_self _ _) a.isLt)

/-- A row whose mask is all bits from `k` up matches the addresses whose number above those bits is the row's. -/
theorem AddrRow.hits_iff_div {p : Nat} {t : Target} {v a : AddrField} (k : Nat) {m : AddrField}
    (hm : m = BitVec.allOnes 17 <<< k) :
    AddrRow.hits ⟨p, t, m, v⟩ a = true ↔ a.toNat / 2 ^ k * 2 ^ k = v.toNat := by
  subst hm
  rw [← and_highMask_toNat]
  simp [AddrRow.hits, ← BitVec.toNat_inj]

theorem find_row_cons (r : AddrRow) (rows : List AddrRow) (a : AddrField) :
    ((r :: rows).find? (·.hits a)).map (·.target) =
      if r.hits a = true then some r.target else (rows.find? (·.hits a)).map (·.target) := by
  cases h : r.hits a <;> simp [h]

theorem ite_target_chain {c d : Prop} [Decidable c] [Decidable d] {x y y' : Option Target} (h : c ↔ d)
    (hy : ¬ d → y = y') : (if c then x else y) = if d then x else y' := by
  by_cases hd : d <;> simp [h, hd, hy]

/-- The address decode table by ranges (30_encoding R87). -/
theorem decodeTarget_eq (a : AddrField) : decodeTarget a =
    if 0x10000 ≤ a.toNat then some .outOfRange
    else if a.toNat = 0xFF00 then some .joyp
    else if a.toNat = 0xFF04 then some .div
    else if a.toNat = 0xFF05 then some .tima
    else if a.toNat = 0xFF06 then some .tma
    else if a.toNat = 0xFF07 then some .tac
    else if 0xFF00 ≤ a.toNat ∧ a.toNat < 0xFF80 then some .regsPlain
    else if 0xFF80 ≤ a.toNat then some .stack
    else if 0xFE00 ≤ a.toNat then some .oam
    else if 0xE000 ≤ a.toNat ∧ a.toNat < 0xF000 then some .forbiddenE
    else if 0xF000 ≤ a.toNat ∧ a.toNat < 0xF800 then some .forbiddenF0
    else if 0xF800 ≤ a.toNat ∧ a.toNat < 0xFC00 then some .forbiddenF8
    else if 0xFC00 ≤ a.toNat then some .forbiddenFC
    else if 0xC000 ≤ a.toNat then some .wram
    else if 0xA000 ≤ a.toNat then some .extram
    else if 0x8000 ≤ a.toNat then some .vram
    else some .cart := by
  have ha := a.isLt
  unfold decodeTarget addressTable
  simp only [find_row_cons]
  refine ite_target_chain ((AddrRow.hits_iff_div 16 (by decide)).trans (by simp; omega)) fun _ => ?_
  refine ite_target_chain ((AddrRow.hits_iff_div 0 (by decide)).trans (by simp)) fun _ => ?_
  refine ite_target_chain ((AddrRow.hits_iff_div 0 (by decide)).trans (by simp)) fun _ => ?_
  refine ite_target_chain ((AddrRow.hits_iff_div 0 (by decide)).trans (by simp)) fun _ => ?_
  refine ite_target_chain ((AddrRow.hits_iff_div 0 (by decide)).trans (by simp)) fun _ => ?_
  refine ite_target_chain ((AddrRow.hits_iff_div 0 (by decide)).trans (by simp)) fun _ => ?_
  refine ite_target_chain ((AddrRow.hits_iff_div 7 (by decide)).trans (by simp; omega)) fun _ => ?_
  refine ite_target_chain ((AddrRow.hits_iff_div 7 (by decide)).trans (by simp; omega)) fun _ => ?_
  refine ite_target_chain ((AddrRow.hits_iff_div 8 (by decide)).trans (by simp; omega)) fun _ => ?_
  refine ite_target_chain ((AddrRow.hits_iff_div 12 (by decide)).trans (by simp; omega)) fun _ => ?_
  refine ite_target_chain ((AddrRow.hits_iff_div 11 (by decide)).trans (by simp; omega)) fun _ => ?_
  refine ite_target_chain ((AddrRow.hits_iff_div 10 (by decide)).trans (by simp; omega)) fun _ => ?_
  refine ite_target_chain ((AddrRow.hits_iff_div 9 (by decide)).trans (by simp; omega)) fun _ => ?_
  refine ite_target_chain ((AddrRow.hits_iff_div 13 (by decide)).trans (by simp; omega)) fun _ => ?_
  refine ite_target_chain ((AddrRow.hits_iff_div 13 (by decide)).trans (by simp; omega)) fun _ => ?_
  refine ite_target_chain ((AddrRow.hits_iff_div 13 (by decide)).trans (by simp; omega)) fun _ => ?_
  exact if_pos ((AddrRow.hits_iff_div 15 (by decide)).mpr (by simp; omega))

/-! ## The masks of the request words -/

/-- A word's OP, and the bits of it below. -/
theorem word_eq_op_append (w : Word) : w = opField w ++ w.extractLsb' 0 29 := by
  apply BitVec.eq_of_getLsbD_eq
  intro i hi
  rw [BitVec.getLsbD_append]
  by_cases h : i < 29
  · simp [h]
  · simp [h, opField, show i - 29 < 3 by omega, show 29 + (i - 29) = i by omega]

theorem wordMatches_op (v : Word) (w : Word) (hv : v.extractLsb' 0 29 = 0#29) :
    wordMatches 0xE0000000#32 v w = (opField w == opField v) := by
  rw [Bool.eq_iff_iff]
  simp only [wordMatches, opField, beq_iff_eq]
  constructor
  · intro h
    ext i hi
    have := congrArg (·.getLsbD (29 + i)) h
    interval_cases i <;> simpa using this
  · intro h
    ext i hi
    by_cases hi' : i < 29
    · have := congrArg (·.getLsbD i) hv
      interval_cases i <;> simp at this ⊢ <;> simp [this]
    · have := congrArg (·.getLsbD (i - 29)) h
      interval_cases i <;> simpa using this

theorem wordMatches_read (w : Word) : wordMatches 0xE0000FFF#32 0x00000000#32 w =
    (opField w == 0b000#3 && w.extractLsb' 0 12 == 0#12) := by
  rw [Bool.eq_iff_iff]
  simp only [wordMatches, opField, beq_iff_eq, Bool.and_eq_true]
  constructor
  · intro h
    constructor
    · ext i hi
      have := congrArg (·.getLsbD (29 + i)) h
      interval_cases i <;> simpa using this
    · ext i hi
      have := congrArg (·.getLsbD i) h
      interval_cases i <;> simpa using this
  · rintro ⟨h1, h2⟩
    ext i hi
    by_cases h : i < 12
    · have := congrArg (·.getLsbD i) h2
      interval_cases i <;> simpa using this
    · by_cases h : i < 29
      · interval_cases i <;> simp at *
      · have := congrArg (·.getLsbD (i - 29)) h1
        interval_cases i <;> simpa using this

theorem wordMatches_write (w : Word) : wordMatches 0xE0000F00#32 0x20000000#32 w =
    (opField w == 0b001#3 && w.extractLsb' 8 4 == 0#4) := by
  rw [Bool.eq_iff_iff]
  simp only [wordMatches, opField, beq_iff_eq, Bool.and_eq_true]
  constructor
  · intro h
    constructor
    · ext i hi
      have := congrArg (·.getLsbD (29 + i)) h
      interval_cases i <;> simpa using this
    · ext i hi
      have := congrArg (·.getLsbD (8 + i)) h
      interval_cases i <;> simpa using this
  · rintro ⟨h1, h2⟩
    ext i hi
    by_cases h : i < 8
    · interval_cases i <;> simp at *
    · by_cases h : i < 12
      · have := congrArg (·.getLsbD (i - 8)) h2
        interval_cases i <;> simpa using this
      · by_cases h : i < 29
        · interval_cases i <;> simp at *
        · have := congrArg (·.getLsbD (i - 29)) h1
          interval_cases i <;> simpa using this

/-- The mask 0xFFFFFF00 of PUSH_BUTTONS and of a data word compares bits 31:8. -/
theorem wordMatches_byte (v w : Word) (hv : v.extractLsb' 0 8 = 0#8) :
    wordMatches 0xFFFFFF00#32 v w = (w.extractLsb' 8 24 == v.extractLsb' 8 24) := by
  rw [Bool.eq_iff_iff]
  simp only [wordMatches, beq_iff_eq]
  constructor
  · intro h
    ext i hi
    have := congrArg (·.getLsbD (8 + i)) h
    interval_cases i <;> simpa using this
  · intro h
    ext i hi
    by_cases hi' : i < 8
    · have := congrArg (·.getLsbD i) hv
      interval_cases i <;> simp at this ⊢ <;> simp [this]
    · have := congrArg (·.getLsbD (i - 8)) h
      interval_cases i <;> simpa using this

/-- The mask 0xFFFFFFFF compares the whole word. -/
theorem wordMatches_all (v w : Word) : wordMatches 0xFFFFFFFF#32 v w = (w == v) := by
  have : w &&& 0xFFFFFFFF#32 = w := BitVec.and_allOnes
  simp [wordMatches, this]

/-- PUSH_BUTTONS by fields (30_encoding R82). -/
theorem wordMatches_push (w : Word) : wordMatches 0xFFFFFF00#32 0x60000000#32 w = true ↔
    opField w = 0b011#3 ∧ w.extractLsb' 8 21 = 0#21 := by
  rw [wordMatches_byte _ _ (by decide), beq_iff_eq]
  constructor
  · intro h
    constructor
    · have := congrArg (·.extractLsb' 21 3) h
      rw [opField, ← show (w.extractLsb' 8 24).extractLsb' 21 3 = w.extractLsb' 29 3 by
        ext i hi; interval_cases i <;> simp, this]
      decide
    · have := congrArg (·.extractLsb' 0 21) h
      rw [← show (w.extractLsb' 8 24).extractLsb' 0 21 = w.extractLsb' 8 21 by
        ext i hi; interval_cases i <;> simp, this]
      decide
  · rintro ⟨h1, h2⟩
    ext i hi
    by_cases hi' : i < 21
    · have := congrArg (·.getLsbD i) h2
      interval_cases i <;> simpa using this
    · have := congrArg (·.getLsbD (i - 21)) h1
      interval_cases i <;> simpa [opField] using this

/-- The fields of a word written as OP and the bits below it. -/
theorem opField_append (k : BitVec 3) (x : BitVec 29) : opField (k ++ x) = k :=
  BitVec.extractLsb'_append_eq_left (a := k) (b := x)

theorem low_append (k : BitVec 3) (x : BitVec 29) : BitVec.extractLsb' 0 29 (k ++ x : Word) = x :=
  BitVec.extractLsb'_append_eq_right (a := k) (b := x)

/-- A word with one OP and nothing below it. -/
theorem wordMatches_bare (k : BitVec 3) (w : Word) : wordMatches 0xFFFFFFFF#32 (k ++ 0#29) w = true ↔
    opField w = k ∧ w.extractLsb' 0 29 = 0#29 := by
  rw [wordMatches_all, beq_iff_eq]
  constructor
  · rintro rfl
    exact ⟨opField_append _ _, low_append _ _⟩
  · rintro ⟨h1, h2⟩
    rw [word_eq_op_append w, h1, h2]

theorem wordMatches_op_iff (k : BitVec 3) (w : Word) :
    wordMatches 0xE0000000#32 (k ++ 0#29) w = true ↔ opField w = k := by
  rw [wordMatches_op _ _ (low_append _ _), beq_iff_eq, opField_append]

theorem ite_except_chain {ε α : Type} {c d : Prop} [Decidable c] [Decidable d] {x y y' : Except ε α} (h : c ↔ d)
    (hy : y = y') : (if c then x else y) = if d then x else y' := by
  by_cases hd : d <;> simp [h, hd, hy]

/-- The decoder by fields: OP and the reserved bits of its row (30_encoding R81, R82, R83). -/
theorem decode_cons (w : Word) (rest : List Word) : decode (w :: rest) =
    if opField w = 0b000#3 ∧ w.extractLsb' 0 12 = 0#12 then .ok (.read (w.extractLsb' 12 17).toNat, rest)
    else if opField w = 0b001#3 ∧ w.extractLsb' 8 4 = 0#4 then
      .ok (.write (w.extractLsb' 12 17).toNat (w.extractLsb' 0 8), rest)
    else if opField w = 0b010#3 then .ok (.tick (w.extractLsb' 0 29).toNat, rest)
    else if opField w = 0b011#3 ∧ w.extractLsb' 8 21 = 0#21 then
      .ok (.pushButtons (w.extractLsb' 0 4) (w.extractLsb' 4 4), rest)
    else if opField w = 0b100#3 ∧ w.extractLsb' 0 29 = 0#29 then .ok (.ackTimerIrq, rest)
    else if opField w = 0b101#3 then
      match decodeData (w.extractLsb' 0 29).toNat rest with
      | .ok (bytes, rest') => .ok (.loadCart bytes, rest')
      | .error e => .error e
    else if opField w = 0b110#3 then .ok (.reserved110 (w.extractLsb' 0 29), rest)
    else if opField w = 0b111#3 ∧ w.extractLsb' 0 29 = 0#29 then .ok (.reset, rest)
    else .error (.reservedBits w) := by
  rw [decode]
  refine ite_except_chain (by simp [wordMatches_read]) ?_
  refine ite_except_chain (by simp [wordMatches_write]) ?_
  refine ite_except_chain (wordMatches_op_iff 0b010#3 w) ?_
  refine ite_except_chain (wordMatches_push w) ?_
  refine ite_except_chain (wordMatches_bare 0b100#3 w) ?_
  refine ite_except_chain (wordMatches_op_iff 0b101#3 w) ?_
  refine ite_except_chain (wordMatches_op_iff 0b110#3 w) ?_
  exact ite_except_chain (wordMatches_bare 0b111#3 w) rfl

/-- A data word by its field (30_encoding R82, R83). -/
theorem dataByte_eq (w : Word) :
    dataByte w = if w.extractLsb' 8 24 = 0#24 then some (w.extractLsb' 0 8) else none := by
  unfold dataByte
  rw [wordMatches_byte _ _ (by decide)]
  by_cases h : w.extractLsb' 8 24 = 0#24
  · simp [h]
  · simp [h]

/-- A data word carries its byte. -/
theorem dataByte_dataWord (b : Byte) : dataByte (dataWord b) = some b := by
  rw [dataByte_eq, if_pos (show (dataWord b).extractLsb' 8 24 = 0#24 from
    BitVec.extractLsb'_append_eq_left (a := 0#24) (b := b))]
  exact congrArg some (BitVec.extractLsb'_append_eq_right (a := 0#24) (b := b))

/-- The data words of an image carry it, and the words after them are left. -/
theorem decodeData_map (bytes : List Byte) (rest : List Word) :
    decodeData bytes.length (bytes.map dataWord ++ rest) = .ok (bytes, rest) := by
  induction bytes with
  | nil => rfl
  | cons b bs ih => simp [decodeData, dataByte_dataWord, ih]

end Sys2Proof
end

