-- ==== Sys2Proof/Laws/Memory.lean ====
section
/-! SUPPORT. The laws of the backing store: a read after a write or a load, the canonical form kept by both, and the
canonical form being the only one of its contents. -/

namespace Sys2Proof.Machine

/-! ## The canonical form -/

theorem Memory.canonicalFrom_mono {lo hi : Nat} (h : lo ≤ hi) :
    ∀ {m : Memory}, Memory.canonicalFrom hi m = true → Memory.canonicalFrom lo m = true
  | [], _ => rfl
  | (k, x) :: m, hm => by
    simp only [Memory.canonicalFrom, Bool.and_eq_true, decide_eq_true_eq] at hm ⊢
    exact ⟨⟨h.trans hm.1.1, hm.1.2⟩, hm.2⟩

theorem Memory.read_below : ∀ {m : Memory} {lo a : Nat}, Memory.canonicalFrom lo m = true → a < lo →
    Memory.read m a = Memory.background
  | [], _, _, _, _ => rfl
  | (k, x) :: m, lo, a, hm, ha => by
    simp only [Memory.canonicalFrom, Bool.and_eq_true, decide_eq_true_eq] at hm
    have hne : a ≠ k := by omega
    simpa [Memory.read, hne] using Memory.read_below hm.2 (by omega)

theorem Memory.canonicalFrom_cons {lo a : Nat} {b : Byte} {m : Memory} (hlo : lo ≤ a)
    (hm : Memory.canonicalFrom (a + 1) m = true) : Memory.canonicalFrom lo (Memory.cons a b m) = true := by
  unfold Memory.cons
  split
  · exact Memory.canonicalFrom_mono (by omega) hm
  · simp_all [Memory.canonicalFrom]

theorem Memory.read_cons {a : Nat} {b : Byte} {m : Memory} (hm : Memory.canonicalFrom (a + 1) m = true) (x : Nat) :
    (Memory.cons a b m).read x = if x = a then b else m.read x := by
  unfold Memory.cons
  split
  · next h =>
    split
    · next hx => rw [hx, h, Memory.read_below hm (Nat.lt_succ_self a)]
    · rfl
  · rfl

theorem Memory.canonicalFrom_write : ∀ {m : Memory} {lo a : Nat} (b : Byte), Memory.canonicalFrom lo m = true → lo ≤ a →
    Memory.canonicalFrom lo (m.write a b) = true
  | [], _, _, _, _, ha => Memory.canonicalFrom_cons ha rfl
  | (k, x) :: m, lo, a, b, hm, ha => by
    have hm' := hm
    simp only [Memory.canonicalFrom, Bool.and_eq_true, decide_eq_true_eq] at hm'
    unfold Memory.write
    split
    · next hlt => exact Memory.canonicalFrom_cons ha (by simp [Memory.canonicalFrom, hm'.1.2, hm'.2]; omega)
    · split
      · next heq => subst heq; exact Memory.canonicalFrom_cons ha hm'.2
      · simp only [Memory.canonicalFrom, Bool.and_eq_true, decide_eq_true_eq]
        exact ⟨hm'.1, Memory.canonicalFrom_write b hm'.2 (by omega)⟩

/-- A read after a write: the written byte at the address, every other byte as before. -/
theorem Memory.read_write_from : ∀ {m : Memory} {lo : Nat} (a : Nat) (b : Byte) (x : Nat),
    Memory.canonicalFrom lo m = true → (m.write a b).read x = if x = a then b else m.read x
  | [], _, _, _, x, _ => Memory.read_cons (m := []) rfl x
  | (k, y) :: m, lo, a, b, x, hm => by
    simp only [Memory.canonicalFrom, Bool.and_eq_true, decide_eq_true_eq] at hm
    unfold Memory.write
    split
    · next hlt => exact Memory.read_cons (by simp [Memory.canonicalFrom, hm.1.2, hm.2]; omega) x
    · split
      · next heq =>
        subst heq
        rw [Memory.read_cons hm.2 x]
        by_cases hx : x = a <;> simp [Memory.read, hx]
      · next hne =>
        simp only [Memory.read]
        rw [Memory.read_write_from a b x hm.2]
        by_cases hx : x = k
        · have : k ≠ a := fun h => hne h.symm
          simp [hx, this]
        · simp [hx]

theorem Memory.mem_cons {a : Nat} {b : Byte} {m : Memory} {c : Host.Cell} (h : c ∈ Memory.cons a b m) :
    c = (a, b) ∨ c ∈ m := by
  unfold Memory.cons at h
  split at h
  · exact .inr h
  · simpa using h

/-- A cell of a written store is the written one or was there. -/
theorem Memory.mem_write : ∀ {m : Memory} {a : Nat} {b : Byte} {c : Host.Cell}, c ∈ m.write a b → c = (a, b) ∨ c ∈ m
  | [], _, _, _, h => Memory.mem_cons h
  | (k, x) :: m, a, b, c, h => by
    unfold Memory.write at h
    split at h
    · exact Memory.mem_cons h
    · split at h
      · exact (Memory.mem_cons h).imp_right (List.mem_cons_of_mem _)
      · rcases List.mem_cons.mp h with h | h
        · exact .inr (h ▸ List.mem_cons_self)
        · exact (Memory.mem_write h).imp_right (List.mem_cons_of_mem _)

/-! ## `Memory.wf` -/

theorem Memory.wf_iff {m : Memory} :
    m.wf = true ↔ Memory.canonicalFrom 0 m = true ∧ ∀ c ∈ m, c.1 < Config.totalSize := by
  simp [Memory.wf]

theorem Memory.wf_nil : Memory.wf [] = true := rfl

/-- A write inside the address space keeps the canonical form. -/
theorem Memory.wf_write {m : Memory} (h : m.wf = true) {a : Nat} (ha : a < Config.totalSize) (b : Byte) :
    (m.write a b).wf = true := by
  rw [Memory.wf_iff] at h ⊢
  refine ⟨Memory.canonicalFrom_write b h.1 (Nat.zero_le _), fun c hc => ?_⟩
  rcases Memory.mem_write hc with rfl | hc
  · exact ha
  · exact h.2 c hc

theorem Memory.read_write {m : Memory} (h : m.wf = true) (a : Nat) (b : Byte) (x : Nat) :
    (m.write a b).read x = if x = a then b else m.read x :=
  Memory.read_write_from a b x (Memory.wf_iff.mp h).1

@[simp] theorem Memory.read_nil (a : Nat) : Memory.read [] a = Memory.background := rfl

/-- A load inside the address space keeps the canonical form. -/
theorem Memory.wf_load {m : Memory} (h : m.wf = true) : ∀ {i : Nat} {bs : List Byte},
    i + bs.length ≤ Config.totalSize → (m.load i bs).wf = true
  | _, [], _ => h
  | i, b :: bs, hl => by
    rw [List.length_cons] at hl
    exact Memory.wf_write (Memory.wf_load h (by omega)) (by omega) b

/-- A read after a load: the loaded byte at its position, every other byte as before. -/
theorem Memory.read_load {m : Memory} (h : m.wf = true) : ∀ {i : Nat} {bs : List Byte} (x : Nat),
    i + bs.length ≤ Config.totalSize →
    (m.load i bs).read x = if i ≤ x then (bs[x - i]?).getD (m.read x) else m.read x
  | i, [], x, _ => by simp [Memory.load]
  | i, b :: bs, x, hl => by
    rw [List.length_cons] at hl
    rw [Memory.load, Memory.read_write (Memory.wf_load h (by omega)), Memory.read_load h x (by omega)]
    rcases lt_trichotomy x i with hx | hx | hx
    · simp [show x ≠ i by omega, show ¬ i + 1 ≤ x by omega, show ¬ i ≤ x by omega]
    · simp [hx]
    · obtain ⟨d, rfl⟩ : ∃ d, x = i + 1 + d := ⟨x - (i + 1), by omega⟩
      simp [show i + 1 + d ≠ i by omega, show i ≤ i + 1 + d by omega, show i + 1 + d - i = d + 1 by omega]

/-- A cell of a loaded store lies in the loaded range or was there. -/
theorem Memory.mem_load {m : Memory} : ∀ {i : Nat} {bs : List Byte} {c : Host.Cell}, c ∈ m.load i bs →
    (i ≤ c.1 ∧ c.1 < i + bs.length) ∨ c ∈ m
  | _, [], _, h => .inr h
  | i, b :: bs, c, h => by
    rw [List.length_cons]
    rcases Memory.mem_write h with rfl | h
    · exact .inl ⟨le_refl _, by omega⟩
    · rcases Memory.mem_load h with h | h
      · exact .inl ⟨by omega, by omega⟩
      · exact .inr h

/-- Two stores in canonical form with the same bytes are the same store. -/
theorem Memory.ext_from : ∀ {m m' : Memory} {lo lo' : Nat}, Memory.canonicalFrom lo m = true →
    Memory.canonicalFrom lo' m' = true → (∀ x, m.read x = m'.read x) → m = m'
  | [], [], _, _, _, _, _ => rfl
  | [], (k, x) :: m', _, _, _, hm', h => by
    simp only [Memory.canonicalFrom, Bool.and_eq_true, decide_eq_true_eq] at hm'
    exact absurd (by simpa [Memory.read] using (h k).symm) hm'.1.2
  | (k, x) :: m, [], _, _, hm, _, h => by
    simp only [Memory.canonicalFrom, Bool.and_eq_true, decide_eq_true_eq] at hm
    exact absurd (by simpa [Memory.read] using h k) hm.1.2
  | (k, x) :: m, (k', x') :: m', _, _, hm, hm', h => by
    simp only [Memory.canonicalFrom, Bool.and_eq_true, decide_eq_true_eq] at hm hm'
    have hk : k = k' := by
      rcases lt_trichotomy k k' with hlt | heq | hlt
      · have := h k
        simp only [Memory.read, if_pos, show k ≠ k' by omega, if_false] at this
        exact absurd (this.trans (Memory.read_below hm'.2 (by omega))) hm.1.2
      · exact heq
      · have := h k'
        simp only [Memory.read, if_pos, show k' ≠ k by omega, if_false] at this
        exact absurd (this.symm.trans (Memory.read_below hm.2 (by omega))) hm'.1.2
    subst hk
    have hx : x = x' := by simpa [Memory.read] using h k
    subst hx
    rw [Memory.ext_from hm.2 hm'.2 fun y => ?_]
    by_cases hy : y = k
    · rw [hy, Memory.read_below hm.2 (Nat.lt_succ_self k), Memory.read_below hm'.2 (Nat.lt_succ_self k)]
    · simpa [Memory.read, hy] using h y

theorem Memory.ext {m m' : Memory} (h : m.wf = true) (h' : m'.wf = true) (hr : ∀ x, m.read x = m'.read x) : m = m' :=
  Memory.ext_from (Memory.wf_iff.mp h).1 (Memory.wf_iff.mp h').1 hr

end Sys2Proof.Machine
end

