-- ==== Sys2Proof/Laws/State.lean ====
section
/-! SUPPORT. One lemma for each field and each named update of State, so that no proof unfolds a record update. -/

namespace Sys2Proof.Machine

variable (s : State)

/-! ### `State.setStore` -/

@[simp] theorem State.setStore_store (m : Memory) : (s.setStore m).store = m := rfl
@[simp] theorem State.setStore_sel (m : Memory) : (s.setStore m).sel = s.sel := rfl
@[simp] theorem State.setStore_btn0 (m : Memory) : (s.setStore m).btn0 = s.btn0 := rfl
@[simp] theorem State.setStore_btn1 (m : Memory) : (s.setStore m).btn1 = s.btn1 := rfl
@[simp] theorem State.setStore_div (m : Memory) : (s.setStore m).div = s.div := rfl
@[simp] theorem State.setStore_divAcc (m : Memory) : (s.setStore m).divAcc = s.divAcc := rfl
@[simp] theorem State.setStore_tima (m : Memory) : (s.setStore m).tima = s.tima := rfl
@[simp] theorem State.setStore_tma (m : Memory) : (s.setStore m).tma = s.tma := rfl
@[simp] theorem State.setStore_tac (m : Memory) : (s.setStore m).tac = s.tac := rfl
@[simp] theorem State.setStore_tacc (m : Memory) : (s.setStore m).tacc = s.tacc := rfl
@[simp] theorem State.setStore_tirq (m : Memory) : (s.setStore m).tirq = s.tirq := rfl
@[simp] theorem State.setStore_started (m : Memory) : (s.setStore m).started = s.started := rfl
@[simp] theorem State.setStore_fault (m : Memory) : (s.setStore m).fault = s.fault := rfl
@[simp] theorem State.setStore_port (m : Memory) : (s.setStore m).port = s.port := rfl
@[simp] theorem State.setStore_response (m : Memory) : (s.setStore m).response = s.response := rfl

/-! ### `State.setSel` -/

@[simp] theorem State.setSel_store (x : BitVec 2) : (s.setSel x).store = s.store := rfl
@[simp] theorem State.setSel_sel (x : BitVec 2) : (s.setSel x).sel = x := rfl
@[simp] theorem State.setSel_btn0 (x : BitVec 2) : (s.setSel x).btn0 = s.btn0 := rfl
@[simp] theorem State.setSel_btn1 (x : BitVec 2) : (s.setSel x).btn1 = s.btn1 := rfl
@[simp] theorem State.setSel_div (x : BitVec 2) : (s.setSel x).div = s.div := rfl
@[simp] theorem State.setSel_divAcc (x : BitVec 2) : (s.setSel x).divAcc = s.divAcc := rfl
@[simp] theorem State.setSel_tima (x : BitVec 2) : (s.setSel x).tima = s.tima := rfl
@[simp] theorem State.setSel_tma (x : BitVec 2) : (s.setSel x).tma = s.tma := rfl
@[simp] theorem State.setSel_tac (x : BitVec 2) : (s.setSel x).tac = s.tac := rfl
@[simp] theorem State.setSel_tacc (x : BitVec 2) : (s.setSel x).tacc = s.tacc := rfl
@[simp] theorem State.setSel_tirq (x : BitVec 2) : (s.setSel x).tirq = s.tirq := rfl
@[simp] theorem State.setSel_started (x : BitVec 2) : (s.setSel x).started = s.started := rfl
@[simp] theorem State.setSel_fault (x : BitVec 2) : (s.setSel x).fault = s.fault := rfl
@[simp] theorem State.setSel_port (x : BitVec 2) : (s.setSel x).port = s.port := rfl
@[simp] theorem State.setSel_response (x : BitVec 2) : (s.setSel x).response = s.response := rfl

/-! ### `State.setButtons` -/

@[simp] theorem State.setButtons_store (g0 g1 : Nibble) : (s.setButtons g0 g1).store = s.store := rfl
@[simp] theorem State.setButtons_sel (g0 g1 : Nibble) : (s.setButtons g0 g1).sel = s.sel := rfl
@[simp] theorem State.setButtons_btn0 (g0 g1 : Nibble) : (s.setButtons g0 g1).btn0 = g0 := rfl
@[simp] theorem State.setButtons_btn1 (g0 g1 : Nibble) : (s.setButtons g0 g1).btn1 = g1 := rfl
@[simp] theorem State.setButtons_div (g0 g1 : Nibble) : (s.setButtons g0 g1).div = s.div := rfl
@[simp] theorem State.setButtons_divAcc (g0 g1 : Nibble) : (s.setButtons g0 g1).divAcc = s.divAcc := rfl
@[simp] theorem State.setButtons_tima (g0 g1 : Nibble) : (s.setButtons g0 g1).tima = s.tima := rfl
@[simp] theorem State.setButtons_tma (g0 g1 : Nibble) : (s.setButtons g0 g1).tma = s.tma := rfl
@[simp] theorem State.setButtons_tac (g0 g1 : Nibble) : (s.setButtons g0 g1).tac = s.tac := rfl
@[simp] theorem State.setButtons_tacc (g0 g1 : Nibble) : (s.setButtons g0 g1).tacc = s.tacc := rfl
@[simp] theorem State.setButtons_tirq (g0 g1 : Nibble) : (s.setButtons g0 g1).tirq = s.tirq := rfl
@[simp] theorem State.setButtons_started (g0 g1 : Nibble) : (s.setButtons g0 g1).started = s.started := rfl
@[simp] theorem State.setButtons_fault (g0 g1 : Nibble) : (s.setButtons g0 g1).fault = s.fault := rfl
@[simp] theorem State.setButtons_port (g0 g1 : Nibble) : (s.setButtons g0 g1).port = s.port := rfl
@[simp] theorem State.setButtons_response (g0 g1 : Nibble) : (s.setButtons g0 g1).response = s.response := rfl

/-! ### `State.setDivider` -/

@[simp] theorem State.setDivider_store (d : Byte) (n : Nat) : (s.setDivider d n).store = s.store := rfl
@[simp] theorem State.setDivider_sel (d : Byte) (n : Nat) : (s.setDivider d n).sel = s.sel := rfl
@[simp] theorem State.setDivider_btn0 (d : Byte) (n : Nat) : (s.setDivider d n).btn0 = s.btn0 := rfl
@[simp] theorem State.setDivider_btn1 (d : Byte) (n : Nat) : (s.setDivider d n).btn1 = s.btn1 := rfl
@[simp] theorem State.setDivider_div (d : Byte) (n : Nat) : (s.setDivider d n).div = d := rfl
@[simp] theorem State.setDivider_divAcc (d : Byte) (n : Nat) : (s.setDivider d n).divAcc = n := rfl
@[simp] theorem State.setDivider_tima (d : Byte) (n : Nat) : (s.setDivider d n).tima = s.tima := rfl
@[simp] theorem State.setDivider_tma (d : Byte) (n : Nat) : (s.setDivider d n).tma = s.tma := rfl
@[simp] theorem State.setDivider_tac (d : Byte) (n : Nat) : (s.setDivider d n).tac = s.tac := rfl
@[simp] theorem State.setDivider_tacc (d : Byte) (n : Nat) : (s.setDivider d n).tacc = s.tacc := rfl
@[simp] theorem State.setDivider_tirq (d : Byte) (n : Nat) : (s.setDivider d n).tirq = s.tirq := rfl
@[simp] theorem State.setDivider_started (d : Byte) (n : Nat) : (s.setDivider d n).started = s.started := rfl
@[simp] theorem State.setDivider_fault (d : Byte) (n : Nat) : (s.setDivider d n).fault = s.fault := rfl
@[simp] theorem State.setDivider_port (d : Byte) (n : Nat) : (s.setDivider d n).port = s.port := rfl
@[simp] theorem State.setDivider_response (d : Byte) (n : Nat) : (s.setDivider d n).response = s.response := rfl

/-! ### `State.setTima` -/

@[simp] theorem State.setTima_store (v : Byte) : (s.setTima v).store = s.store := rfl
@[simp] theorem State.setTima_sel (v : Byte) : (s.setTima v).sel = s.sel := rfl
@[simp] theorem State.setTima_btn0 (v : Byte) : (s.setTima v).btn0 = s.btn0 := rfl
@[simp] theorem State.setTima_btn1 (v : Byte) : (s.setTima v).btn1 = s.btn1 := rfl
@[simp] theorem State.setTima_div (v : Byte) : (s.setTima v).div = s.div := rfl
@[simp] theorem State.setTima_divAcc (v : Byte) : (s.setTima v).divAcc = s.divAcc := rfl
@[simp] theorem State.setTima_tima (v : Byte) : (s.setTima v).tima = v := rfl
@[simp] theorem State.setTima_tma (v : Byte) : (s.setTima v).tma = s.tma := rfl
@[simp] theorem State.setTima_tac (v : Byte) : (s.setTima v).tac = s.tac := rfl
@[simp] theorem State.setTima_tacc (v : Byte) : (s.setTima v).tacc = s.tacc := rfl
@[simp] theorem State.setTima_tirq (v : Byte) : (s.setTima v).tirq = s.tirq := rfl
@[simp] theorem State.setTima_started (v : Byte) : (s.setTima v).started = s.started := rfl
@[simp] theorem State.setTima_fault (v : Byte) : (s.setTima v).fault = s.fault := rfl
@[simp] theorem State.setTima_port (v : Byte) : (s.setTima v).port = s.port := rfl
@[simp] theorem State.setTima_response (v : Byte) : (s.setTima v).response = s.response := rfl

/-! ### `State.setTma` -/

@[simp] theorem State.setTma_store (v : Byte) : (s.setTma v).store = s.store := rfl
@[simp] theorem State.setTma_sel (v : Byte) : (s.setTma v).sel = s.sel := rfl
@[simp] theorem State.setTma_btn0 (v : Byte) : (s.setTma v).btn0 = s.btn0 := rfl
@[simp] theorem State.setTma_btn1 (v : Byte) : (s.setTma v).btn1 = s.btn1 := rfl
@[simp] theorem State.setTma_div (v : Byte) : (s.setTma v).div = s.div := rfl
@[simp] theorem State.setTma_divAcc (v : Byte) : (s.setTma v).divAcc = s.divAcc := rfl
@[simp] theorem State.setTma_tima (v : Byte) : (s.setTma v).tima = s.tima := rfl
@[simp] theorem State.setTma_tma (v : Byte) : (s.setTma v).tma = v := rfl
@[simp] theorem State.setTma_tac (v : Byte) : (s.setTma v).tac = s.tac := rfl
@[simp] theorem State.setTma_tacc (v : Byte) : (s.setTma v).tacc = s.tacc := rfl
@[simp] theorem State.setTma_tirq (v : Byte) : (s.setTma v).tirq = s.tirq := rfl
@[simp] theorem State.setTma_started (v : Byte) : (s.setTma v).started = s.started := rfl
@[simp] theorem State.setTma_fault (v : Byte) : (s.setTma v).fault = s.fault := rfl
@[simp] theorem State.setTma_port (v : Byte) : (s.setTma v).port = s.port := rfl
@[simp] theorem State.setTma_response (v : Byte) : (s.setTma v).response = s.response := rfl

/-! ### `State.setTac` -/

@[simp] theorem State.setTac_store (v : Byte) : (s.setTac v).store = s.store := rfl
@[simp] theorem State.setTac_sel (v : Byte) : (s.setTac v).sel = s.sel := rfl
@[simp] theorem State.setTac_btn0 (v : Byte) : (s.setTac v).btn0 = s.btn0 := rfl
@[simp] theorem State.setTac_btn1 (v : Byte) : (s.setTac v).btn1 = s.btn1 := rfl
@[simp] theorem State.setTac_div (v : Byte) : (s.setTac v).div = s.div := rfl
@[simp] theorem State.setTac_divAcc (v : Byte) : (s.setTac v).divAcc = s.divAcc := rfl
@[simp] theorem State.setTac_tima (v : Byte) : (s.setTac v).tima = s.tima := rfl
@[simp] theorem State.setTac_tma (v : Byte) : (s.setTac v).tma = s.tma := rfl
@[simp] theorem State.setTac_tac (v : Byte) : (s.setTac v).tac = v := rfl
@[simp] theorem State.setTac_tacc (v : Byte) : (s.setTac v).tacc = s.tacc := rfl
@[simp] theorem State.setTac_tirq (v : Byte) : (s.setTac v).tirq = s.tirq := rfl
@[simp] theorem State.setTac_started (v : Byte) : (s.setTac v).started = s.started := rfl
@[simp] theorem State.setTac_fault (v : Byte) : (s.setTac v).fault = s.fault := rfl
@[simp] theorem State.setTac_port (v : Byte) : (s.setTac v).port = s.port := rfl
@[simp] theorem State.setTac_response (v : Byte) : (s.setTac v).response = s.response := rfl

/-! ### `State.setTacc` -/

@[simp] theorem State.setTacc_store (n : Nat) : (s.setTacc n).store = s.store := rfl
@[simp] theorem State.setTacc_sel (n : Nat) : (s.setTacc n).sel = s.sel := rfl
@[simp] theorem State.setTacc_btn0 (n : Nat) : (s.setTacc n).btn0 = s.btn0 := rfl
@[simp] theorem State.setTacc_btn1 (n : Nat) : (s.setTacc n).btn1 = s.btn1 := rfl
@[simp] theorem State.setTacc_div (n : Nat) : (s.setTacc n).div = s.div := rfl
@[simp] theorem State.setTacc_divAcc (n : Nat) : (s.setTacc n).divAcc = s.divAcc := rfl
@[simp] theorem State.setTacc_tima (n : Nat) : (s.setTacc n).tima = s.tima := rfl
@[simp] theorem State.setTacc_tma (n : Nat) : (s.setTacc n).tma = s.tma := rfl
@[simp] theorem State.setTacc_tac (n : Nat) : (s.setTacc n).tac = s.tac := rfl
@[simp] theorem State.setTacc_tacc (n : Nat) : (s.setTacc n).tacc = n := rfl
@[simp] theorem State.setTacc_tirq (n : Nat) : (s.setTacc n).tirq = s.tirq := rfl
@[simp] theorem State.setTacc_started (n : Nat) : (s.setTacc n).started = s.started := rfl
@[simp] theorem State.setTacc_fault (n : Nat) : (s.setTacc n).fault = s.fault := rfl
@[simp] theorem State.setTacc_port (n : Nat) : (s.setTacc n).port = s.port := rfl
@[simp] theorem State.setTacc_response (n : Nat) : (s.setTacc n).response = s.response := rfl

/-! ### `State.setTirq` -/

@[simp] theorem State.setTirq_store (b : Bool) : (s.setTirq b).store = s.store := rfl
@[simp] theorem State.setTirq_sel (b : Bool) : (s.setTirq b).sel = s.sel := rfl
@[simp] theorem State.setTirq_btn0 (b : Bool) : (s.setTirq b).btn0 = s.btn0 := rfl
@[simp] theorem State.setTirq_btn1 (b : Bool) : (s.setTirq b).btn1 = s.btn1 := rfl
@[simp] theorem State.setTirq_div (b : Bool) : (s.setTirq b).div = s.div := rfl
@[simp] theorem State.setTirq_divAcc (b : Bool) : (s.setTirq b).divAcc = s.divAcc := rfl
@[simp] theorem State.setTirq_tima (b : Bool) : (s.setTirq b).tima = s.tima := rfl
@[simp] theorem State.setTirq_tma (b : Bool) : (s.setTirq b).tma = s.tma := rfl
@[simp] theorem State.setTirq_tac (b : Bool) : (s.setTirq b).tac = s.tac := rfl
@[simp] theorem State.setTirq_tacc (b : Bool) : (s.setTirq b).tacc = s.tacc := rfl
@[simp] theorem State.setTirq_tirq (b : Bool) : (s.setTirq b).tirq = b := rfl
@[simp] theorem State.setTirq_started (b : Bool) : (s.setTirq b).started = s.started := rfl
@[simp] theorem State.setTirq_fault (b : Bool) : (s.setTirq b).fault = s.fault := rfl
@[simp] theorem State.setTirq_port (b : Bool) : (s.setTirq b).port = s.port := rfl
@[simp] theorem State.setTirq_response (b : Bool) : (s.setTirq b).response = s.response := rfl

/-! ### `State.start` -/

@[simp] theorem State.start_store : (s.start).store = s.store := rfl
@[simp] theorem State.start_sel : (s.start).sel = s.sel := rfl
@[simp] theorem State.start_btn0 : (s.start).btn0 = s.btn0 := rfl
@[simp] theorem State.start_btn1 : (s.start).btn1 = s.btn1 := rfl
@[simp] theorem State.start_div : (s.start).div = s.div := rfl
@[simp] theorem State.start_divAcc : (s.start).divAcc = s.divAcc := rfl
@[simp] theorem State.start_tima : (s.start).tima = s.tima := rfl
@[simp] theorem State.start_tma : (s.start).tma = s.tma := rfl
@[simp] theorem State.start_tac : (s.start).tac = s.tac := rfl
@[simp] theorem State.start_tacc : (s.start).tacc = s.tacc := rfl
@[simp] theorem State.start_tirq : (s.start).tirq = s.tirq := rfl
@[simp] theorem State.start_started : (s.start).started = true := rfl
@[simp] theorem State.start_fault : (s.start).fault = s.fault := rfl
@[simp] theorem State.start_port : (s.start).port = s.port := rfl
@[simp] theorem State.start_response : (s.start).response = s.response := rfl

/-! ### `State.setFault` -/

@[simp] theorem State.setFault_store (r : Fault) : (s.setFault r).store = s.store := rfl
@[simp] theorem State.setFault_sel (r : Fault) : (s.setFault r).sel = s.sel := rfl
@[simp] theorem State.setFault_btn0 (r : Fault) : (s.setFault r).btn0 = s.btn0 := rfl
@[simp] theorem State.setFault_btn1 (r : Fault) : (s.setFault r).btn1 = s.btn1 := rfl
@[simp] theorem State.setFault_div (r : Fault) : (s.setFault r).div = s.div := rfl
@[simp] theorem State.setFault_divAcc (r : Fault) : (s.setFault r).divAcc = s.divAcc := rfl
@[simp] theorem State.setFault_tima (r : Fault) : (s.setFault r).tima = s.tima := rfl
@[simp] theorem State.setFault_tma (r : Fault) : (s.setFault r).tma = s.tma := rfl
@[simp] theorem State.setFault_tac (r : Fault) : (s.setFault r).tac = s.tac := rfl
@[simp] theorem State.setFault_tacc (r : Fault) : (s.setFault r).tacc = s.tacc := rfl
@[simp] theorem State.setFault_tirq (r : Fault) : (s.setFault r).tirq = s.tirq := rfl
@[simp] theorem State.setFault_started (r : Fault) : (s.setFault r).started = s.started := rfl
@[simp] theorem State.setFault_fault (r : Fault) : (s.setFault r).fault = some r := rfl
@[simp] theorem State.setFault_port (r : Fault) : (s.setFault r).port = s.port := rfl
@[simp] theorem State.setFault_response (r : Fault) : (s.setFault r).response = s.response := rfl

/-! ### `State.setPort` -/

@[simp] theorem State.setPort_store (ws : List Word) : (s.setPort ws).store = s.store := rfl
@[simp] theorem State.setPort_sel (ws : List Word) : (s.setPort ws).sel = s.sel := rfl
@[simp] theorem State.setPort_btn0 (ws : List Word) : (s.setPort ws).btn0 = s.btn0 := rfl
@[simp] theorem State.setPort_btn1 (ws : List Word) : (s.setPort ws).btn1 = s.btn1 := rfl
@[simp] theorem State.setPort_div (ws : List Word) : (s.setPort ws).div = s.div := rfl
@[simp] theorem State.setPort_divAcc (ws : List Word) : (s.setPort ws).divAcc = s.divAcc := rfl
@[simp] theorem State.setPort_tima (ws : List Word) : (s.setPort ws).tima = s.tima := rfl
@[simp] theorem State.setPort_tma (ws : List Word) : (s.setPort ws).tma = s.tma := rfl
@[simp] theorem State.setPort_tac (ws : List Word) : (s.setPort ws).tac = s.tac := rfl
@[simp] theorem State.setPort_tacc (ws : List Word) : (s.setPort ws).tacc = s.tacc := rfl
@[simp] theorem State.setPort_tirq (ws : List Word) : (s.setPort ws).tirq = s.tirq := rfl
@[simp] theorem State.setPort_started (ws : List Word) : (s.setPort ws).started = s.started := rfl
@[simp] theorem State.setPort_fault (ws : List Word) : (s.setPort ws).fault = s.fault := rfl
@[simp] theorem State.setPort_port (ws : List Word) : (s.setPort ws).port = ws := rfl
@[simp] theorem State.setPort_response (ws : List Word) : (s.setPort ws).response = s.response := rfl

/-! ### `State.setResponse` -/

@[simp] theorem State.setResponse_store (r : Response) : (s.setResponse r).store = s.store := rfl
@[simp] theorem State.setResponse_sel (r : Response) : (s.setResponse r).sel = s.sel := rfl
@[simp] theorem State.setResponse_btn0 (r : Response) : (s.setResponse r).btn0 = s.btn0 := rfl
@[simp] theorem State.setResponse_btn1 (r : Response) : (s.setResponse r).btn1 = s.btn1 := rfl
@[simp] theorem State.setResponse_div (r : Response) : (s.setResponse r).div = s.div := rfl
@[simp] theorem State.setResponse_divAcc (r : Response) : (s.setResponse r).divAcc = s.divAcc := rfl
@[simp] theorem State.setResponse_tima (r : Response) : (s.setResponse r).tima = s.tima := rfl
@[simp] theorem State.setResponse_tma (r : Response) : (s.setResponse r).tma = s.tma := rfl
@[simp] theorem State.setResponse_tac (r : Response) : (s.setResponse r).tac = s.tac := rfl
@[simp] theorem State.setResponse_tacc (r : Response) : (s.setResponse r).tacc = s.tacc := rfl
@[simp] theorem State.setResponse_tirq (r : Response) : (s.setResponse r).tirq = s.tirq := rfl
@[simp] theorem State.setResponse_started (r : Response) : (s.setResponse r).started = s.started := rfl
@[simp] theorem State.setResponse_fault (r : Response) : (s.setResponse r).fault = s.fault := rfl
@[simp] theorem State.setResponse_port (r : Response) : (s.setResponse r).port = s.port := rfl
@[simp] theorem State.setResponse_response (r : Response) : (s.setResponse r).response = some r := rfl

end Sys2Proof.Machine
end

