-- ==== Sys2Proof/Laws/Ops.lean ====
section
/-! SUPPORT. What each shared operation can do, said once: the fault check, the responses, the address forms, an access,
the façade and the rows of the address decode table. -/

namespace Sys2Proof.Machine

/-! ## The fault check and the endings of a request -/

theorem unlessFaulted_none {s : State} (h : s.fault = none) (body : Outcome) : unlessFaulted s body = body := by
  simp [unlessFaulted, h]

theorem unlessFaulted_some {s : State} {r : Fault} (h : s.fault = some r) (body : Outcome) :
    unlessFaulted s body = .refused .afterFault := by
  simp [unlessFaulted, h]

theorem unlessFaulted_next {s t : State} {body : Outcome} :
    unlessFaulted s body = .next t ↔ s.fault = none ∧ body = .next t := by
  cases h : s.fault <;> simp [unlessFaulted, h]

theorem unlessStarted_false {s : State} (h : s.started = false) (body : Outcome) : unlessStarted s body = body := by
  simp [unlessStarted, h]

theorem unlessStarted_true {s : State} (h : s.started = true) (body : Outcome) :
    unlessStarted s body = .refused .loadAfterStart := by
  simp [unlessStarted, h]

theorem unlessStarted_next {s t : State} {body : Outcome} :
    unlessStarted s body = .next t ↔ s.started = false ∧ body = .next t := by
  cases h : s.started <;> simp [unlessStarted, h]

theorem respond_next {s t : State} {v : Byte} : respond v s = .next t ↔ t = s.setResponse (.ok v) := by
  simp [respond, eq_comm]

theorem raise_next {s t : State} {r : Fault} :
    raise r s = .next t ↔ t = (s.setFault r).setResponse (errorResponse r) := by
  simp [raise, eq_comm]

/-! ## LOAD_CART -/

/-- An image that fits is copied (43_host_ports R192). -/
theorem execLoadCart_fits {s : State} {bytes : List Byte} (hf : s.fault = none) (hs : s.started = false)
    (hl : bytes.length ≤ 0x8000) :
    execLoadCart bytes s = .next ((s.setStore (s.store.load 0 bytes)).setResponse (.ok 0)) := by
  rw [execLoadCart, unlessFaulted_none hf, unlessStarted_false hs,
    if_neg (show ¬ Config.cartSize < bytes.length from Nat.not_lt.mpr hl)]
  rfl

/-- An image that does not fit is the fatal error (60_exceptions R212). -/
theorem execLoadCart_exceeds {s : State} {bytes : List Byte} (hf : s.fault = none) (hs : s.started = false)
    (hl : 0x8000 < bytes.length) :
    execLoadCart bytes s =
      .next ((s.setFault (.capacityExceeded bytes.length)).setResponse (.capacityExceeded bytes.length)) := by
  rw [execLoadCart, unlessFaulted_none hf, unlessStarted_false hs, if_pos (show Config.cartSize < bytes.length from hl)]
  rfl

/-! ## The address forms -/

theorem find_region_cons (r : Region) (rows : List Region) (a : Nat) :
    (r :: rows).find? (fun r => regionContains r a) =
      if r.start ≤ a ∧ a < r.start + r.size then some r else rows.find? fun r => regionContains r a := by
  by_cases h : r.start ≤ a ∧ a < r.start + r.size <;> simp [regionContains, h]

theorem ite_chain {α : Sort*} {c d : Prop} [Decidable c] [Decidable d] {x y y' : α} (h : c ↔ d) (hy : ¬ d → y = y') :
    (if c then x else y) = if d then x else y' := by
  by_cases hd : d <;> simp [h, hd, hy]

/-- The region of an address, by its bounds (20_memory R52). -/
theorem resolve_eq (a : Nat) : resolve a =
    if 0x10000 ≤ a then none
    else if a < 0x8000 then some ⟨.cart, 0x0000, 0x8000, .readOnly⟩
    else if a < 0xA000 then some ⟨.vram, 0x8000, 0x2000, .readWrite⟩
    else if a < 0xC000 then some ⟨.extram, 0xA000, 0x2000, .readWrite⟩
    else if a < 0xE000 then some ⟨.wram, 0xC000, 0x2000, .readWrite⟩
    else if a < 0xFE00 then some ⟨.forbidden, 0xE000, 0x1E00, .forbidden⟩
    else if a < 0xFF00 then some ⟨.oam, 0xFE00, 0x0100, .readWrite⟩
    else if a < 0xFF80 then some ⟨.regs, 0xFF00, 0x0080, .readWrite⟩
    else some ⟨.stack, 0xFF80, 0x0080, .readWrite⟩ := by
  simp only [resolve, Config.regionTable, Config.totalSize, find_region_cons, List.find?_nil]
  iterate 8 refine ite_chain (by omega) fun _ => ?_
  exact if_pos (by omega)

theorem resolve_none_iff {a : Nat} : resolve a = none ↔ 0x10000 ≤ a := by
  rw [resolve_eq]
  repeat' split
  all_goals simp_all

/-- The register kind of an offset (30_encoding R88). -/
theorem regKind_eq (off : Nat) : regKind off =
    if off = 0 then .inputSelect else if off = 4 then .divider else if off = 5 then .timerCounter
    else if off = 6 then .timerModulo else if off = 7 then .timerControl else .plainStorage := rfl

/-- RegRead by offset (41_register_bank R130). -/
theorem regRead_eq (off : Nat) (s : State) : regRead off s =
    if off = 0 then joypByte s.sel s.btn0 s.btn1 else if off = 4 then s.div else if off = 5 then s.tima
    else if off = 6 then s.tma else if off = 7 then s.tac else s.store.read (0xFF00 + off) := by
  unfold regRead
  rw [regKind_eq]
  split_ifs <;> rfl

/-- RegWrite by offset (41_register_bank R131). -/
theorem regWrite_eq (off : Nat) (v : Byte) (s : State) : regWrite off v s =
    if off = 0 then s.setSel (selectorOf v) else if off = 4 then s.setDivider 0 0 else if off = 5 then s.setTima v
    else if off = 6 then s.setTma v else if off = 7 then s.setTac v
    else s.setStore (s.store.write (0xFF00 + off) v) := by
  unfold regWrite
  rw [regKind_eq]
  split_ifs <;> rfl

/-! ## Region dispatch -/

/-- A read of region REGS goes to the register bank (40_facade R102). -/
theorem readRegion_regs {r : Region} (hn : r.name = .regs) (hp : r.policy = .readWrite) (off : Nat) (s : State) :
    readRegion r (0xFF00 + off) s = regRead off s := by
  simp [readRegion, hn, hp, Config.regBase]

/-- A read of another region that is not forbidden gives the stored byte (40_facade R102). -/
theorem readRegion_store {r : Region} (hn : r.name ≠ .regs) (hp : r.policy ≠ .forbidden) (a : Nat) (s : State) :
    readRegion r a s = s.store.read a := by
  cases h : r.policy <;> simp_all [readRegion, storeRead]

theorem readRegion_forbidden {r : Region} (hp : r.policy = .forbidden) (a : Nat) (s : State) :
    readRegion r a s = 0#8 := by
  simp [readRegion, hp, Config.sentinel]

/-- A write of region REGS goes to the register bank (40_facade R103). -/
theorem writeRegion_regs {r : Region} (hn : r.name = .regs) (hp : r.policy = .readWrite) (off : Nat) (v : Byte)
    (s : State) : writeRegion r (0xFF00 + off) v s = regWrite off v s := by
  simp [writeRegion, hn, hp, Config.regBase]

/-- A write of another read-write region stores the byte (40_facade R103). -/
theorem writeRegion_store {r : Region} (hn : r.name ≠ .regs) (hp : r.policy = .readWrite) (a : Nat) (v : Byte)
    (s : State) : writeRegion r a v s = s.setStore (s.store.write a v) := by
  simp [writeRegion, hn, hp, storeWrite]

/-- A write of a region that is not read-write is absorbed (40_facade R103, 60_exceptions R214). -/
theorem writeRegion_absorbed {r : Region} (hp : r.policy ≠ .readWrite) (a : Nat) (v : Byte) (s : State) :
    writeRegion r a v s = s := by
  cases h : r.policy <;> simp_all [writeRegion, absorb]

/-! ## Accesses -/

/-- An access ends with the byte read, or with the state written. -/
theorem access_next {acc : Access} {rd : State → Byte} {wr : Byte → State → State} {s t : State} :
    access acc rd wr s = .next t ↔
      (acc = .read ∧ t = s.setResponse (.ok (rd s))) ∨
      (∃ v, acc = .write v ∧ t = (wr v s).setResponse (.ok 0)) := by
  cases acc <;> simp [access, respond, eq_comm]

/-- The façade answers a next state when no fault is recorded: the error of an address out of range, or the access of the
address's region. -/
theorem facade_next {acc : Access} {a : Nat} {s t : State} :
    facade acc a s = .next t ↔ s.fault = none ∧
      ((0x10000 ≤ a ∧ t = (s.start.setFault (.outOfRange a)).setResponse (.outOfRange a)) ∨
       (∃ r, resolve a = some r ∧ access acc (readRegion r a) (writeRegion r a) s.start = .next t)) := by
  unfold facade
  rw [unlessFaulted_next]
  refine and_congr_right fun _ => ?_
  cases h : resolve a with
  | none => simp [resolve_none_iff.mp h, raise_next, errorResponse]
  | some r =>
    have : ¬ 0x10000 ≤ a := fun h' => by simp [resolve_none_iff.mpr h'] at h
    simp [this]

/-- A row of the address decode table answers a next state when no fault is recorded. -/
theorem rowAccess_next {acc : Access} {rd : State → Byte} {wr : Byte → State → State} {s t : State} :
    rowAccess acc rd wr s = .next t ↔ s.fault = none ∧ access acc rd wr s.start = .next t :=
  unlessFaulted_next

/-! ## The request port is invisible to an access

Stated one operation at a time, over any offset: `a - Config.regBase` with a variable `a` must not be reduced by the kernel. -/

theorem regRead_setPort (off : Nat) (s : State) (ws : List Word) : regRead off (s.setPort ws) = regRead off s := by
  unfold regRead
  cases regKind off <;> rfl

theorem regWrite_setPort (off : Nat) (v : Byte) (s : State) (ws : List Word) :
    regWrite off v (s.setPort ws) = (regWrite off v s).setPort ws := by
  unfold regWrite
  cases regKind off <;> rfl

theorem readRegion_setPort (r : Region) (a : Nat) (s : State) (ws : List Word) :
    readRegion r a (s.setPort ws) = readRegion r a s := by
  unfold readRegion
  rw [regRead_setPort]
  generalize regRead (a - Config.regBase) s = w
  cases r.policy <;> rfl

theorem writeRegion_setPort (r : Region) (a : Nat) (v : Byte) (s : State) (ws : List Word) :
    writeRegion r a v (s.setPort ws) = (writeRegion r a v s).setPort ws := by
  by_cases hp : r.policy = .readWrite
  · by_cases hn : r.name = .regs
    · have e : ∀ u, writeRegion r a v u = regWrite (a - Config.regBase) v u := fun u => by
        simp only [writeRegion, hp, hn, if_true]
      rw [e, e, regWrite_setPort]
    · rw [writeRegion_store hn hp, writeRegion_store hn hp]; rfl
  · rw [writeRegion_absorbed hp, writeRegion_absorbed hp]

end Sys2Proof.Machine
end

