-- ==== Sys2Proof/Laws/Params.lean ====
section
/-! SUPPORT. What the check of a parameter set says of its region table (spec/00_scope.md R9). -/

namespace Sys2Proof

/-- Rows that follow one another from `base` on: each starts at `base` plus the sizes before it, and all the sizes lead to
the total. -/
theorem regionsContiguous_iff (total : Nat) (rows : List Region) : ∀ base : Nat, regionsContiguous total base rows = true ↔
    (∀ k (h : k < rows.length), (rows[k]).start = base + ((rows.take k).map Region.size).sum) ∧
      base + (rows.map Region.size).sum = total := by
  induction rows with
  | nil => simp [regionsContiguous]
  | cons r rows ih =>
    intro base
    simp only [regionsContiguous, Bool.and_eq_true, beq_iff_eq, ih, List.map_cons, List.sum_cons, ← Nat.add_assoc]
    constructor
    · rintro ⟨h0, hk, ht⟩
      refine ⟨fun k h => ?_, ht⟩
      cases k with
      | zero => simpa using h0
      | succ k => simpa [Nat.add_assoc] using hk k (by simpa using h)
    · rintro ⟨hk, ht⟩
      refine ⟨hk 0 (Nat.succ_pos _), fun k h => ?_, ht⟩
      refine (hk (k + 1) (Nat.succ_lt_succ h)).trans ?_
      simp [Nat.add_assoc]

/-- One row has the name, and it shows `x`: as a count, and of every row. -/
theorem map_filter_eq_singleton {α : Type} (n : RegionName) (f : Region → α) (x : α) (rows : List Region) :
    (rows.filter (·.name = n)).map f = [x] ↔
      (rows.map Region.name).count n = 1 ∧ ∀ r ∈ rows, r.name = n → f r = x := by
  have hlen : (rows.map Region.name).count n = ((rows.filter (·.name = n)).map f).length := by
    rw [List.length_map, ← List.countP_eq_length_filter, List.count, List.countP_map]
    refine List.countP_congr fun r _ => ?_
    simp
  have hmem : (∀ r ∈ rows, r.name = n → f r = x) ↔ ∀ y ∈ (rows.filter (·.name = n)).map f, y = x := by
    simp only [List.forall_mem_map, List.mem_filter, decide_eq_true_eq, and_imp]
  rw [hlen, hmem]
  constructor
  · intro h
    simp [h]
  · rintro ⟨h1, hx⟩
    obtain ⟨y, hy⟩ := List.length_eq_one_iff.mp h1
    rw [hy] at hx ⊢
    simpa using hx y (by simp)

end Sys2Proof
end

