-- ==== Sys2Proof/Laws/PerInstr.lean ====
section
/-! SUPPORT. Facts about every instruction as syntax, one lemma for each constructor. -/

namespace Sys2Proof

/-- The words a spelling occupies on the request port: a request's words, one data word; an address none of its own. -/
def Spelling.words : Spelling → List Word
  | .request ws => ws
  | .data _ w => [w]
  | .address _ _ => []

/-- How many words an instruction occupies on the request port: 1 + L for a LOAD_CART of L bytes, 1 for every other
request (30_encoding R82). -/
def Instr.wordCount : Instr → Nat
  | .loadCart bytes => 1 + bytes.length
  | .read _ | .write _ _ | .tick _ | .pushButtons _ _ | .ackTimerIrq | .loadCartData _ _ | .reset | .reserved110 _ => 1
  | .addrOutOfRange _ _ | .addrJoyp _ | .addrDiv _ | .addrTima _ | .addrTma _ | .addrTac _ | .addrRegsPlain _ _
  | .addrStack _ _ | .addrOam _ _ | .addrForbiddenE _ _ | .addrForbiddenF0 _ _ | .addrForbiddenF8 _ _
  | .addrForbiddenFC _ _ | .addrWram _ _ | .addrExtram _ _ | .addrVram _ _ | .addrCart _ _ => 0

end Sys2Proof

namespace Sys2Proof.Laws.WordCount

/-- The encoding of an instruction has the number of words the spec gives it. -/
def Statement (i : Instr) : Prop := (encode i).words.length = i.wordCount

theorem read (a : Nat) : Statement (.read a) := rfl
theorem write (a : Nat) (v : Byte) : Statement (.write a v) := rfl
theorem tick (n : Nat) : Statement (.tick n) := rfl
theorem pushButtons (g0 g1 : Nibble) : Statement (.pushButtons g0 g1) := rfl
theorem ackTimerIrq : Statement .ackTimerIrq := rfl
theorem loadCart (bytes : List Byte) : Statement (.loadCart bytes) := by
  simp [Statement, encode, Spelling.words, Instr.wordCount, Nat.add_comm]
theorem loadCartData (i : BitVec 15) (b : Byte) : Statement (.loadCartData i b) := rfl
theorem reset : Statement .reset := rfl
theorem reserved110 (x : BitVec 29) : Statement (.reserved110 x) := rfl
theorem addrOutOfRange (x : BitVec 16) (acc : Access) : Statement (.addrOutOfRange x acc) := rfl
theorem addrJoyp (acc : Access) : Statement (.addrJoyp acc) := rfl
theorem addrDiv (acc : Access) : Statement (.addrDiv acc) := rfl
theorem addrTima (acc : Access) : Statement (.addrTima acc) := rfl
theorem addrTma (acc : Access) : Statement (.addrTma acc) := rfl
theorem addrTac (acc : Access) : Statement (.addrTac acc) := rfl
theorem addrRegsPlain (x : BitVec 7) (acc : Access) : Statement (.addrRegsPlain x acc) := rfl
theorem addrStack (x : BitVec 7) (acc : Access) : Statement (.addrStack x acc) := rfl
theorem addrOam (x : BitVec 8) (acc : Access) : Statement (.addrOam x acc) := rfl
theorem addrForbiddenE (x : BitVec 12) (acc : Access) : Statement (.addrForbiddenE x acc) := rfl
theorem addrForbiddenF0 (x : BitVec 11) (acc : Access) : Statement (.addrForbiddenF0 x acc) := rfl
theorem addrForbiddenF8 (x : BitVec 10) (acc : Access) : Statement (.addrForbiddenF8 x acc) := rfl
theorem addrForbiddenFC (x : BitVec 9) (acc : Access) : Statement (.addrForbiddenFC x acc) := rfl
theorem addrWram (x : BitVec 13) (acc : Access) : Statement (.addrWram x acc) := rfl
theorem addrExtram (x : BitVec 13) (acc : Access) : Statement (.addrExtram x acc) := rfl
theorem addrVram (x : BitVec 13) (acc : Access) : Statement (.addrVram x acc) := rfl
theorem addrCart (x : BitVec 15) (acc : Access) : Statement (.addrCart x acc) := rfl

end Sys2Proof.Laws.WordCount
end

