-- ==== Sys2Proof/Laws/Step.lean ====
section
/-! SUPPORT. What a step can do when it answers a next state, and the host's run one step at a time. -/

namespace Sys2Proof.Machine

variable {s t : State}

/-- A step that answers a next state starts with no fault recorded; it keeps the state, or it performs the request that
the port begins with. -/
theorem step_next (h : step s = .next t) : s.fault = none ∧
    ((t = s ∧ (fetch s = .idle ∨ fetch s = .waiting)) ∨
      ∃ i rest, decode s.port = .ok (i, rest) ∧ exec i (s.setPort rest) = .next t) := by
  cases hf : s.fault with
  | some r =>
    by_cases hp : s.port = [] <;> simp [step, fetch, hf, hp] at h
  | none =>
    refine ⟨rfl, ?_⟩
    have hq : fetch s = fetchRequest s.port := by simp [fetch, hf]
    unfold step at h
    split at h
    · next hi => exact .inl ⟨by simpa using h.symm, .inl hi⟩
    · next hw => exact .inl ⟨by simpa using h.symm, .inr hw⟩
    · simp at h
    · simp at h
    · simp at h
    · next i rest hr =>
      refine .inr ⟨i, rest, ?_, h⟩
      rw [hq] at hr
      unfold fetchRequest at hr
      split at hr
      · simp at hr
      · split at hr <;> simp at hr
        obtain ⟨rfl, rfl⟩ := hr
        assumption

/-- The host's run of any machine, one step at a time. -/
theorem run_succ_of (M : Host.Core) (k : Nat) (s : M.State) : M.run (k + 1) s =
    match M.step s with
    | .next t => M.run k t
    | .fault r => .fault r
    | .refused r => .refused r := rfl

/-- The host's run of this machine, one step at a time. -/
theorem core_run_succ (k : Nat) (s : State) : Host.Core.run Sys2Proof.core (k + 1) s =
    match step s with
    | .next t => Host.Core.run Sys2Proof.core k t
    | .fault r => .fault r
    | .refused r => .refused r := by
  refine (run_succ_of Sys2Proof.core k s).trans ?_
  rw [show Host.Core.step Sys2Proof.core s = step s from rfl]
  cases step s <;> rfl

end Sys2Proof.Machine
end

