-- ==== Sys2Proof/Laws/Timer.lean ====
section
/-! SUPPORT. The timer's operations: what they leave unchanged, and how increments and fields compose. -/

namespace Sys2Proof.Machine

variable (s : State)

/-! ## One increment (42_timer R173) -/

theorem counterIncrement_overflow {s : State} (h : s.tima = 0xFF#8) :
    counterIncrement s = (s.setTima s.tma).setTirq true := by
  simp [counterIncrement, raiseTirq, h]

theorem counterIncrement_count {s : State} (h : s.tima ≠ 0xFF#8) :
    counterIncrement s = s.setTima (s.tima + 1#8) := by
  simp [counterIncrement, h]

/-- An increment changes TIMA and TIRQ alone, and they depend on TIMA, TMA and TIRQ alone. -/
theorem counterIncrement_eq : counterIncrement s =
    (s.setTima (if s.tima = 0xFF#8 then s.tma else s.tima + 1#8)).setTirq (s.tirq || decide (s.tima = 0xFF#8)) := by
  by_cases h : s.tima = 0xFF#8
  · simp [counterIncrement_overflow h, h]
  · rw [counterIncrement_count h]; simp [h, State.setTima, State.setTirq]

/-! ## Several increments (42_timer R172) -/

@[simp] theorem counterIncrements_zero : counterIncrements 0 s = s := rfl

@[simp] theorem counterIncrements_succ (k : Nat) :
    counterIncrements (k + 1) s = counterIncrements k (counterIncrement s) := rfl

theorem counterIncrements_add (j k : Nat) :
    ∀ s, counterIncrements (j + k) s = counterIncrements k (counterIncrements j s) := by
  induction j with
  | zero => intro s; simp
  | succ j ih => intro s; rw [Nat.succ_add, counterIncrements_succ, counterIncrements_succ, ih]

/-- Increments change TIMA and TIRQ alone. -/
theorem counterIncrements_frame (k : Nat) : ∀ s, counterIncrements k s =
    (s.setTima (counterIncrements k s).tima).setTirq (counterIncrements k s).tirq := by
  induction k with
  | zero => intro s; rfl
  | succ k ih =>
    intro s
    rw [counterIncrements_succ, ih, counterIncrement_eq]
    rfl

/-- Increments raise TIRQ or leave it. -/
theorem counterIncrements_tirq_of (k : Nat) : ∀ s : State, s.tirq = true → (counterIncrements k s).tirq = true := by
  induction k with
  | zero => exact fun _ h => h
  | succ k ih => exact fun s h => ih _ (by simp [counterIncrement_eq, h])

/-- Increments do not look at the fields they leave alone. -/
theorem counterIncrements_congr (k : Nat) : ∀ s u : State, s.tima = u.tima → s.tma = u.tma → s.tirq = u.tirq →
    (counterIncrements k s).tima = (counterIncrements k u).tima ∧
    (counterIncrements k s).tirq = (counterIncrements k u).tirq := by
  induction k with
  | zero => exact fun _ _ h _ h' => ⟨h, h'⟩
  | succ k ih =>
    intro s u h1 h2 h3
    exact ih _ _ (by simp [counterIncrement_eq, h1, h2]) (by simp [counterIncrement_eq, h2])
      (by simp [counterIncrement_eq, h1, h3])

/-! ## The two advances -/

/-- The period is one of the four rates (41_register_bank R146). -/
theorem timerPeriod_mem (tac : Byte) : timerPeriod tac ∈ Config.rateTable := Vector.getElem_mem _

theorem timerPeriod_pos (tac : Byte) : 0 < timerPeriod tac := by
  have := timerPeriod_mem tac
  simp [Config.rateTable] at this
  omega

theorem timerPeriod_le (tac : Byte) : timerPeriod tac ≤ 1024 := by
  have := timerPeriod_mem tac
  simp [Config.rateTable] at this
  omega

/-- DividerAdvance changes DIV and DIV_ACC alone (42_timer R171). -/
theorem dividerAdvance_eq (n : Nat) : dividerAdvance n s =
    s.setDivider (s.div + BitVec.ofNat 8 ((s.divAcc + n) / 256)) ((s.divAcc + n) % 256) := rfl

/-- The crossings of a TimerAdvance, and the counter's increments among them (42_timer R172). -/
def timerIncrements (n : Nat) : Nat :=
  if timerEnabled s.tac then (s.tacc + n) / timerPeriod s.tac else 0

/-- TimerAdvance changes TACC, TIMA and TIRQ alone (42_timer R172). -/
theorem timerAdvance_eq (n : Nat) : timerAdvance n s =
    ((s.setTacc ((s.tacc + n) % timerPeriod s.tac)).setTima (counterIncrements (timerIncrements s n) s).tima).setTirq
      (counterIncrements (timerIncrements s n) s).tirq := by
  unfold timerAdvance timerIncrements
  cases timerEnabled s.tac
  · rfl
  · simp only [if_true]
    rw [counterIncrements_frame]
    have := counterIncrements_congr ((s.tacc + n) / timerPeriod s.tac)
      (s.setTacc ((s.tacc + n) % timerPeriod s.tac)) s rfl rfl rfl
    rw [this.1, this.2]

end Sys2Proof.Machine
end

