-- ==== Sys2Proof/Tests/Slice0.lean ====
section
/-! SUPPORT. Small tests of the model, each about one step or one decoding, and the witnesses of the statements'
hypotheses. Expected results are those of spec/95_test_vectors.md (the vector is named) or worked out by hand from the
rule named. -/

namespace Sys2Proof.Machine

/-! ## Helpers -/

/-- A field of the next state. -/
def after {α : Type} (f : State → α) : Outcome → Option α
  | .next t => some (f t)
  | .fault _ => none
  | .refused _ => none

/-- The refusal of an outcome. -/
def refusalOf : Outcome → Option Refusal
  | .next _ => none
  | .fault _ => none
  | .refused r => some r

/-- The data byte of a READ of `a`. -/
def readsAs (s : State) (a : Nat) : Option (Option Response) := after State.response (exec (.read a) s)

/-- A state in the middle of a run, with a different value in every element. -/
def sample : State :=
  { State.reset with
    store := [(0x0002, 0xFF#8), (0x7FFF, 0x5A#8), (0xC000, 0x42#8), (0xFF40, 0x91#8), (0xFFFF, 0x1F#8)]
    sel := 0b01#2, btn0 := 0xA#4, btn1 := 0x5#4, div := 0x11#8, divAcc := 44, tima := 0xFE#8, tma := 0x80#8,
    tac := 0x05#8, tacc := 12, started := true }

/-- The reset state with the timer set up (TIMA, TMA, TAC). -/
def timerState (tima tma tac : Byte) : State := { State.reset with tima := tima, tma := tma, tac := tac }

/-- A halted machine. -/
def halted : State := { sample with fault := some (.outOfRange 0x10000) }

theorem sample_inv : Inv sample where
  store_wf := by decide
  store_backed := by decide
  divAcc_lt := by decide
  tacc_lt := by decide
  fault_genuine := nofun
  fault_started := nofun

/-- `sample` before the initialization phase ended. -/
theorem sample_loading_inv : Inv { sample with started := false } where
  store_wf := by decide
  store_backed := by decide
  divAcc_lt := by decide
  tacc_lt := by decide
  fault_genuine := nofun
  fault_started := nofun

/-! ## WellFormed: each check refuses an ill-formed term -/

theorem test_wf_refuses_read_address : (Instr.read 0x20000).wellFormed = false := by decide
theorem test_wf_refuses_write_address : (Instr.write 0x20000 0x01#8).wellFormed = false := by decide
theorem test_wf_refuses_tick_count : (Instr.tick 0x20000000).wellFormed = false := by decide
theorem test_wf_refuses_load_length (bytes : List Byte) (h : bytes.length = 0x20000000) :
    (Instr.loadCart bytes).wellFormed = false := by
  simp [Instr.wellFormed, countFits, h]
theorem test_wf_refuses_special_offset : ∀ k ∈ [0x00, 0x04, 0x05, 0x06, 0x07],
    (Instr.addrRegsPlain (BitVec.ofNat 7 k) .read).wellFormed = false := by decide
theorem test_wf_accepts_largest : (Instr.read 0x1FFFF).wellFormed = true ∧ (Instr.tick 0x1FFFFFFF).wellFormed = true ∧
    (Instr.addrRegsPlain 0x7F#7 .read).wellFormed = true := by decide

/-! ## Decode: words written out from 30_encoding R82 and R87 -/

/-- E1, bit by bit: OP 000, address 0_1111_1111_0000_0101, reserved 0. -/
theorem test_decode_read : decode [0b000_01111111100000101_000000000000#32] = .ok (.read 0xFF05, []) := by decide
/-- E8: an address out of range is still a request. -/
theorem test_decode_read_out_of_range : decode [0x10000000#32] = .ok (.read 0x10000, []) := by decide
/-- E2, bit by bit: OP 001, the address 0xFF06, reserved 0, the value 0x80. -/
theorem test_decode_write : decode [0b001_01111111100000110_0000_10000000#32] = .ok (.write 0xFF06 0x80#8, []) := by
  decide
/-- E3. -/
theorem test_decode_tick : decode [0b010_00000000000000000000100101100#32] = .ok (.tick 300, []) := by decide
/-- E15. -/
theorem test_decode_tick_largest : decode [0x5FFFFFFF#32] = .ok (.tick 0x1FFFFFFF, []) := by decide
/-- E4: bits 3:0 are group 0, bits 7:4 group 1. -/
theorem test_decode_push : decode [0b011_000000000000000000000_0101_1010#32] = .ok (.pushButtons 0xA#4 0x5#4, []) := by
  decide
/-- E5. -/
theorem test_decode_ack : decode [0b100_00000000000000000000000000000#32] = .ok (.ackTimerIrq, []) := by decide
/-- E6, P3: the header and four data words; the next request stays. -/
theorem test_decode_load : decode [0xA0000004#32, 0x31#32, 0xFE#32, 0xFF#32, 0xC3#32, 0xE0000000#32] =
    .ok (.loadCart [0x31#8, 0xFE#8, 0xFF#8, 0xC3#8], [0xE0000000#32]) := by decide
/-- A data word in data position 2. -/
theorem test_decode_load_data : decodeSpelling (.data 2#15 0x000000FF#32) = .ok (.loadCartData 2#15 0xFF#8) := by decide
/-- R83: a data word with bit 8 set. -/
theorem test_decode_load_data_reserved : decode [0xA0000001#32, 0x100#32] = .error (.reservedData 0x100#32) := by decide
/-- A LOAD_CART whose data words have not all come. -/
theorem test_decode_load_incomplete : decode [0xA0000002#32, 0x31#32] = .error .incomplete := by decide
/-- E7. -/
theorem test_decode_reset : decode [0b111_00000000000000000000000000000#32] = .ok (.reset, []) := by decide
/-- E9. -/
theorem test_decode_reserved110 : decode [0xC0000000#32] = .ok (.reserved110 0#29, []) := by decide
/-- E10 to E14. -/
theorem test_decode_reserved_bits :
    decode [0x0FF05001#32] = .error (.reservedBits 0x0FF05001#32) ∧
    decode [0x2FF06180#32] = .error (.reservedBits 0x2FF06180#32) ∧
    decode [0x6000015A#32] = .error (.reservedBits 0x6000015A#32) ∧
    decode [0x80000001#32] = .error (.reservedBits 0x80000001#32) ∧
    decode [0xE0000100#32] = .error (.reservedBits 0xE0000100#32) := by decide

/-- The rows of the table at an address each, the ends of the ranges among them (S1, F5 to F9). -/
theorem test_address_rows :
    decodeAddress .read 0b1_0000_0000_0000_0000#17 = some (.addrOutOfRange 0#16 .read) ∧
    decodeAddress .read 0x1FFFF#17 = some (.addrOutOfRange 0xFFFF#16 .read) ∧
    decodeAddress .read 0b0_1111_1111_0000_0000#17 = some (.addrJoyp .read) ∧
    decodeAddress .read 0b0_1111_1111_0000_0100#17 = some (.addrDiv .read) ∧
    decodeAddress .read 0b0_1111_1111_0000_0101#17 = some (.addrTima .read) ∧
    decodeAddress .read 0b0_1111_1111_0000_0110#17 = some (.addrTma .read) ∧
    decodeAddress .read 0b0_1111_1111_0000_0111#17 = some (.addrTac .read) ∧
    decodeAddress .read 0b0_1111_1111_0000_0001#17 = some (.addrRegsPlain 1#7 .read) ∧
    decodeAddress .read 0x0FF7F#17 = some (.addrRegsPlain 0x7F#7 .read) ∧
    decodeAddress .read 0x0FF80#17 = some (.addrStack 0#7 .read) ∧
    decodeAddress .read 0x0FFFF#17 = some (.addrStack 0x7F#7 .read) := by decide
theorem test_address_rows_ram :
    decodeAddress .read 0x0FE00#17 = some (.addrOam 0#8 .read) ∧
    decodeAddress .read 0x0FEFF#17 = some (.addrOam 0xFF#8 .read) ∧
    decodeAddress .read 0x0E000#17 = some (.addrForbiddenE 0#12 .read) ∧
    decodeAddress .read 0x0F000#17 = some (.addrForbiddenF0 0#11 .read) ∧
    decodeAddress .read 0x0F800#17 = some (.addrForbiddenF8 0#10 .read) ∧
    decodeAddress .read 0x0FC00#17 = some (.addrForbiddenFC 0#9 .read) ∧
    decodeAddress .read 0x0FDFF#17 = some (.addrForbiddenFC 0x1FF#9 .read) ∧
    decodeAddress .read 0x0DFFF#17 = some (.addrWram 0x1FFF#13 .read) ∧
    decodeAddress .read 0x0A000#17 = some (.addrExtram 0#13 .read) ∧
    decodeAddress .read 0x08000#17 = some (.addrVram 0#13 .read) ∧
    decodeAddress .read 0x07FFF#17 = some (.addrCart 0x7FFF#15 .read) := by decide

/-- Table rows as the opcode table numbers them, and that a step runs what was presented. -/
theorem test_table_word_request : decodeTableWord 32 0x2FF06080 = some (.write 0xFF06 0x80#8) ∧
    after State.tma (step (State.reset.withFetchWord 32 0x2FF06080)) = some 0x80#8 := by decide
theorem test_table_word_address : decodeTableWord 17 0xFF00 = some (.addrJoyp .read) ∧
    after State.response (step (State.reset.withFetchWord 17 0xFF00)) = some (some (.ok 0xCF#8)) := by decide
theorem test_table_word_load : decodeTableWord 32 0x000000FE_00000031_A0000002 = some (.loadCart [0x31#8, 0xFE#8]) ∧
    after State.store (step (State.reset.withFetchWord 32 0x000000FE_00000031_A0000002)) =
      some [(0, 0x31#8), (1, 0xFE#8)] := by decide

/-- R86: its own example lines, a comment and an empty list. -/
theorem test_assemble : assemble
    "READ  0xFF05        ; returns a byte\nWRITE 0xFF07, 0x05\n\nTICK  16\nPUSH  0xA, 0x5\nACK\nLOAD  [0x31, 254]\nLOAD []\nRESET".toList =
    some [.read 0xFF05, .write 0xFF07 0x05#8, .tick 16, .pushButtons 0xA#4 0x5#4, .ackTimerIrq,
      .loadCart [0x31#8, 0xFE#8], .loadCart [], .reset] := by decide +kernel
/-- R86: a value that is no byte, and a name that is no request. -/
theorem test_assemble_refuses : assemble "WRITE 0xFF07, 0x100".toList = none ∧ assemble "NOP".toList = none := by decide

/-! ## READ and WRITE -/

/-- The regions' boundaries (F3, F4, F5, F8, B2, S7 and R102), one byte each. -/
theorem test_read_regions :
    [0x0002, 0x7FFF, 0x8000, 0xC000, 0xDFFF, 0xE000, 0xFDFF, 0xFE00, 0xFF40, 0xFFFF].map (readsAs sample) =
    [0xFF#8, 0x5A#8, 0x00#8, 0x42#8, 0x00#8, 0x00#8, 0x00#8, 0x00#8, 0x91#8, 0x1F#8].map (fun v => some (some (.ok v))) := by
  decide
/-- The five special registers (S7, R138, R140, R142, R144). -/
theorem test_read_registers : [0xFF00, 0xFF04, 0xFF05, 0xFF06, 0xFF07].map (readsAs sample) =
    [0xDA#8, 0x11#8, 0xFE#8, 0x80#8, 0x05#8].map (fun v => some (some (.ok v))) := by decide
/-- F1, and a canonical store: writing 0x00 removes the byte. -/
theorem test_write_ram : after State.store (exec (.write 0xC001 0x42#8) State.reset) = some [(0xC001, 0x42#8)] ∧
    after (fun t => t.store.length) (exec (.write 0xC000 0x00#8) sample) = some 4 := by decide
/-- F3, F5, S9: absorbed. -/
theorem test_write_absorbed : after State.store (exec (.write 0x0002 0x00#8) sample) = some sample.store ∧
    after State.store (exec (.write 0xE000 0xFF#8) sample) = some sample.store := by decide

/-! ## The address rows -/

theorem test_row_out_of_range : after State.fault (exec (.addrOutOfRange 0xFFFF#16 (.write 0x01#8)) State.reset) =
    some (some (.outOfRange 0x1FFFF)) := by decide  -- F11
theorem test_row_joyp_mux :
    [0x10#8, 0x20#8, 0x30#8, 0xCF#8].map (fun v => (after State.sel (exec (.addrJoyp (.write v)) sample)).map
      fun x => joypByte x sample.btn0 sample.btn1) =
    [some 0xDA#8, some 0xE5#8, some 0xF0#8, some 0xCF#8] := by decide  -- S7, B4, B5, B7
theorem test_row_div_write_clears : after (fun t => (t.div, t.divAcc, t.tacc)) (exec (.addrDiv (.write 0x77#8)) sample) =
    some (0x00#8, 0, 12) := by decide  -- S3, T11
theorem test_row_tima_write : after (fun t => (t.tima, t.tirq)) (exec (.addrTima (.write 0xFF#8)) sample) =
    some (0xFF#8, false) := by decide  -- B11
theorem test_row_tma_write : after (fun t => (t.tima, t.tma)) (exec (.addrTma (.write 0x77#8)) sample) =
    some (0xFE#8, 0x77#8) := by decide  -- B12
theorem test_row_tac_write : after (fun t => (t.tac, t.tacc)) (exec (.addrTac (.write 0xFD#8)) sample) =
    some (0xFD#8, 12) := by decide  -- B13
theorem test_row_regs_plain : after State.response (exec (.addrRegsPlain 0x40#7 .read) sample) = some (some (.ok 0x91#8)) := by
  decide  -- B2
theorem test_row_stack : after State.response (exec (.addrStack 0x7F#7 .read) sample) = some (some (.ok 0x1F#8)) := by
  decide  -- F8
theorem test_row_oam : after State.store (exec (.addrOam 0xFF#8 (.write 0x34#8)) State.reset) = some [(0xFEFF, 0x34#8)] := by
  decide  -- F7
theorem test_row_forbidden : [Instr.addrForbiddenE 0#12 .read, .addrForbiddenF0 0#11 .read, .addrForbiddenF8 0#10 .read,
      .addrForbiddenFC 0x1FF#9 .read].map (fun i => after State.response (exec i sample)) =
    List.replicate 4 (some (some (.ok 0x00#8))) := by decide  -- F4, F5
theorem test_row_wram : after State.response (exec (.addrWram 0#13 .read) sample) = some (some (.ok 0x42#8)) := by
  decide  -- F1
theorem test_row_extram : after State.store (exec (.addrExtram 0x1FFF#13 (.write 0x77#8)) State.reset) =
    some [(0xBFFF, 0x77#8)] := by decide  -- F13
theorem test_row_vram : after State.response (exec (.addrVram 0#13 .read) State.reset) = some (some (.ok 0x00#8)) := by
  decide  -- F2
theorem test_row_cart : after State.response (exec (.addrCart 0x0002#15 .read) sample) = some (some (.ok 0xFF#8)) ∧
    after State.store (exec (.addrCart 0x0002#15 (.write 0x00#8)) sample) = some sample.store := by decide  -- F3

/-! ## TICK -/

/-- S6, B9: the timer is disabled, the divider and the accumulators run. -/
theorem test_tick_disabled :
    after (fun t => (t.tima, t.tacc, t.div, t.divAcc)) (exec (.tick 1000) (timerState 0x00#8 0x00#8 0x01#8)) =
      some (0x00#8, 8, 0x03#8, 232) := by decide
/-- T5: two overflows in one TICK. -/
theorem test_tick_overflows : after (fun t => (t.tima, t.tirq)) (exec (.tick 48) (timerState 0xFF#8 0xFE#8 0x05#8)) =
    some (0xFE#8, true) := by decide

/-! ## Host ports, RESET, the reserved OP -/

/-- H9. -/
theorem test_push : after (fun t => (t.btn0, t.btn1, t.started)) (exec (.pushButtons 0x3#4 0xC#4) State.reset) =
    some (0x3#4, 0xC#4, false) := by decide
/-- H7. -/
theorem test_ack : after timerIrq (exec .ackTimerIrq { sample with tirq := true }) = some false := by decide
/-- H5: a second image replaces the bytes it has. -/
theorem test_load : after State.store (exec (.loadCart [0x09#8]) { State.reset with store := [(0, 0x01#8), (1, 0x02#8)] }) =
    some [(0, 0x09#8), (1, 0x02#8)] := by decide
/-- H4. -/
theorem test_load_after_start : refusalOf (exec (.loadCart [0x01#8]) sample) = some .loadAfterStart := by decide
/-- R192: data position 0x7FFF is the last byte of the cartridge region. -/
theorem test_load_data : after State.store (exec (.loadCartData 0x7FFF#15 0x5A#8) State.reset) = some [(0x7FFF, 0x5A#8)] := by
  decide
/-- H10. -/
theorem test_reset : after (fun t => { t with response := none }) (exec .reset sample) = some State.reset := by decide
/-- H11. -/
theorem test_reset_after_fault : refusalOf (exec .reset halted) = some .afterFault := by decide
/-- E9. -/
theorem test_reserved110 : refusalOf (exec (.reserved110 0#29) sample) = some (.reservedEncoding 0xC0000000#32) := by decide

/-! ## Witnesses: states and operands that meet the statements' hypotheses, at the ends of their ranges -/

theorem witness_no_fault : sample.fault = none ∧ State.reset.fault = none := by decide  -- `∀ s, s.fault = none → …`
theorem witness_valid_addresses : ∀ a ∈ [0x0000, 0x7FFF, 0x8000, 0xDFFF, 0xE000, 0xFDFF, 0xFE00, 0xFF00, 0xFF01, 0xFF04,
    0xFF05, 0xFF06, 0xFF07, 0xFF08, 0xFFFF], a < 0x10000 := by decide
theorem witness_parameters : { Config.params with divPeriod := 0 }.valid = false ∧
    { Config.params with divPeriod := 1 }.valid = true ∧
    { Config.params with rateTable := #v[1024, 0, 64, 256] }.valid = false ∧
    { Config.params with regionTable := Config.regionTable.drop 1 }.valid = false ∧
    { Config.params with offTac := 0x80 }.valid = false ∧ { Config.params with offTac := 0x06 }.valid = false := by decide
/-- The constraints of R9 as the statement spells them out: a set that breaks each. -/
theorem witness_parameter_constraints :
    ((Config.regionTable.drop 1)[0]).start ≠ (((Config.regionTable.drop 1).take 0).map Region.size).sum ∧
    ((Config.regionTable.take 7).map Region.size).sum ≠ Config.totalSize ∧
    ((Config.regionTable.filter (·.name ≠ .regs)).map Region.name).count .regs ≠ 1 ∧
    ((⟨.cart, 0x10000, 0, .readOnly⟩ :: Config.regionTable).map Region.name).count .cart ≠ 1 ∧
    ¬ [0x00, 0x04, 0x05, 0x06, 0x06].Nodup ∧ ¬ 0x80 < Config.regSize ∧ 0x7F < Config.regSize ∧
    ¬ 1 ≤ (#v[1024, 0, 64, 256])[1] ∧ 1 ≤ (#v[1024, 1, 64, 256])[1] := by decide
theorem witness_step_keeps : ∃ t, Inv sample ∧ step sample = .next t := ⟨_, sample_inv, rfl⟩
theorem witness_step_keeps_write :
    ∃ t, Inv { sample with port := [0x2C000000#32] } ∧ step { sample with port := [0x2C000000#32] } = .next t := by
  refine ⟨_, ⟨?_, ?_, ?_, ?_, nofun, nofun⟩, rfl⟩ <;> decide
theorem witness_written_byte : ∀ a ∈ [0x8000, 0xDFFF, 0xFE00, 0xFF01, 0xFF7F, 0xFF80, 0xFFFF],
    sample.fault = none ∧ 0x8000 ≤ a ∧ backed a = true := by decide
theorem witness_out_of_range : sample.fault = none ∧ 0x10000 ≤ 0x10000 ∧ 0x10000 ≤ 0x123456 := by decide
theorem witness_row3_address : (0x0FFFF#17).toNat < 0x10000 := by decide
theorem witness_plain_offsets : ∀ k ∈ [0x01, 0x03, 0x08, 0x7F],
    specialOffsets.contains (BitVec.ofNat 7 k).toNat = false := by decide
theorem witness_counter : (timerState 0xFF#8 0#8 5#8).tima = 0xFF#8 ∧ sample.tima ≠ 0xFF#8 := by decide
theorem witness_tac_fields : (0xFC#8).extractLsb' 0 2 = 0b00#2 ∧ (0xFD#8).extractLsb' 0 2 = 0b01#2 ∧
    (0xFE#8).extractLsb' 0 2 = 0b10#2 ∧ (0xFF#8).extractLsb' 0 2 = 0b11#2 := by decide
theorem witness_loops : sample.divAcc + 300 ≤ 344 ∧ sample.tacc + 300 ≤ 312 := by decide
theorem witness_many_increments : sample.tima.toNat + 1 < 256 ∧ 256 ≤ sample.tima.toNat + 2 := by decide
theorem witness_ticks_add_up : sample.fault = none ∧ ∀ x ∈ [0xFF05, 0x0000, 0xFFFF], x < 0x10000 := by decide
theorem witness_one_period : (timerState 0xFF#8 0x80#8 5#8).fault = none ∧
    timerEnabled (timerState 0xFF#8 0x80#8 5#8).tac = true ∧ (timerState 0xFF#8 0x80#8 5#8).tacc = 0 ∧
    [10, 0, 6].sum = timerPeriod (timerState 0xFF#8 0x80#8 5#8).tac ∧ (timerState 0xFF#8 0x80#8 5#8).tima = 0xFF#8 ∧
    (timerState 0#8 0x80#8 5#8).tima ≠ 0xFF#8 ∧ timerEnabled (timerState 0#8 0#8 1#8).tac = false := by decide
theorem witness_upper_tac_bits : sample.fault = none ∧ (0xFD#8).extractLsb' 0 3 = (0x05#8).extractLsb' 0 3 := by decide
theorem witness_load_fits : Inv { sample with started := false } ∧ ({ sample with started := false } : State).fault = none ∧
    ({ sample with started := false } : State).started = false ∧ (List.replicate 0x8000 (0x5A#8 : Byte)).length ≤ 0x8000 :=
  ⟨sample_loading_inv, rfl, rfl, List.length_replicate.le⟩
theorem witness_load_refused : Inv sample ∧ sample.fault = none ∧ sample.started = true := ⟨sample_inv, rfl, rfl⟩
theorem witness_load_exceeds : State.reset.fault = none ∧ State.reset.started = false ∧
    0x8000 < (List.replicate 0x8001 (0x5A#8 : Byte)).length := ⟨rfl, rfl, by rw [List.length_replicate]; decide⟩
theorem witness_load_words : ({ sample with started := false } : State).started = false ∧ ([0x09#8] : List Byte) ≠ [] ∧
    ([0x09#8] : List Byte).length ≤ 0x8000 := by decide
theorem witness_fault_is_final : halted.fault = some (.outOfRange 0x10000) ∧ halted.port = [] ∧
    (halted.setPort [0#32]).fault = some (.outOfRange 0x10000) ∧ (halted.setPort [0#32]).port ≠ [] := by decide
theorem witness_records_out_of_range : ∃ t, exec (.read 0x10000) sample = .next t ∧
    t.fault = some (.outOfRange 0x10000) := ⟨_, rfl, rfl⟩
theorem witness_records_capacity : ∃ t, exec (.loadCart (List.replicate 0x8001 0x5A#8)) State.reset = .next t ∧
    t.fault = some (.capacityExceeded 0x8001) := by
  refine ⟨_, execLoadCart_exceeds rfl rfl (by rw [List.length_replicate]; decide), ?_⟩
  rw [List.length_replicate]; rfl
theorem witness_refused_first : opField 0xDFFFFFFF#32 = 0b110#3 ∧ opField 0xC0000000#32 = 0b110#3 ∧
    decode [0x0FF05001#32] = .error (.reservedBits 0x0FF05001#32) ∧
    decode [0xA0000001#32, 0x100#32] = .error (.reservedData 0x100#32) := by decide
theorem witness_tirq_changes : (∃ t, exec (.tick 48) (timerState 0xFF#8 0xFE#8 5#8) = .next t ∧
      t.tirq ≠ (timerState 0xFF#8 0xFE#8 5#8).tirq) ∧
    ∃ t, exec .ackTimerIrq { sample with tirq := true } = .next t ∧ t.tirq ≠ true :=
  ⟨⟨_, rfl, by decide⟩, ⟨_, rfl, by decide⟩⟩
theorem witness_input_changes : (∃ t, exec (.pushButtons 0#4 0#4) sample = .next t ∧ t.btn0 ≠ sample.btn0) ∧
    ∃ t, exec (.write 0xFF00 0x30#8) sample = .next t ∧ t.sel ≠ sample.sel := ⟨⟨_, rfl, by decide⟩, ⟨_, rfl, by decide⟩⟩
theorem witness_time_changes : (∃ t, exec (.write 0xFF04 0#8) sample = .next t ∧ t.div ≠ sample.div) ∧
    ∃ t, exec (.write 0xFF05 0#8) sample = .next t ∧ t.tima ≠ sample.tima := ⟨⟨_, rfl, by decide⟩, ⟨_, rfl, by decide⟩⟩
theorem witness_setup_changes : (∃ t, exec (.write 0xFF06 0#8) sample = .next t ∧ t.tma ≠ sample.tma) ∧
    ∃ t, exec (.write 0xFF07 0#8) sample = .next t ∧ t.tac ≠ sample.tac := ⟨⟨_, rfl, by decide⟩, ⟨_, rfl, by decide⟩⟩
theorem witness_starts : startsOperation (.read 0) ∧ startsOperation (.tick 0) ∧ ¬ startsOperation .ackTimerIrq ∧
    ∃ t, exec .ackTimerIrq State.reset = .next t := by
  refine ⟨.inl rfl, .inr ⟨0, rfl⟩, ?_, ⟨_, rfl⟩⟩
  simp [startsOperation, accessOf]
theorem witness_not_stored : ∃ t, Inv sample ∧ exec (.write 0xC000 0#8) sample = .next t ∧
    ¬ storesTo (.write 0xC000 0#8) 0xC001 ∧ storesTo (.write 0xC000 0#8) 0xC000 := by
  refine ⟨_, sample_inv, rfl, ?_, .inl ⟨⟨_, rfl⟩, by decide, by decide⟩⟩
  simp [storesTo, writesTo, accessOf]
theorem witness_cartridge : ∃ t, Inv sample ∧ exec (.write 0x7FFF 0#8) sample = .next t ∧ 0x7FFF < 0x8000 :=
  ⟨_, sample_inv, rfl, by decide⟩
theorem witness_response_words : (Response.ok 0xFF#8).word.extractLsb' 0 8 = 0xFF#8 ∧
    (Response.outOfRange 0x10000).status = 0b01#2 ∧ (Response.capacityExceeded 0x8001).status = 0b10#2 := by decide
theorem witness_reserved_bits :
    (opField 0x00000800#32 = 0b000#3 ∧ (0x00000800#32).extractLsb' 0 12 ≠ 0#12) ∧
    (opField 0x20000800#32 = 0b001#3 ∧ (0x20000800#32).extractLsb' 8 4 ≠ 0#4) ∧
    (opField 0x70000000#32 = 0b011#3 ∧ (0x70000000#32).extractLsb' 8 21 ≠ 0#21) ∧
    (opField 0x90000000#32 = 0b100#3 ∧ (0x90000000#32).extractLsb' 0 29 ≠ 0#29) ∧
    (opField 0xF0000000#32 = 0b111#3 ∧ (0xF0000000#32).extractLsb' 0 29 ≠ 0#29) := by decide
theorem witness_reserved_data : opField 0xA0000002#32 = 0b101#3 ∧
    ([0x31#8] : List Byte).length < ((0xA0000002#32).extractLsb' 0 29).toNat ∧
    (0x80000000#32).extractLsb' 8 24 ≠ 0#24 := by decide
theorem witness_well_formed : (Instr.read 0x1FFFF).wellFormed = true ∧ (Instr.loadCart [0x31#8]).wellFormed = true ∧
    (Instr.addrRegsPlain 1#7 (.write 0#8)).wellFormed = true := by decide
theorem witness_decoded : decodeSpelling (.request [0x5FFFFFFF#32]) = .ok (.tick 0x1FFFFFFF) ∧
    decodeSpelling (.address .read 0x1FFFF#17) = .ok (.addrOutOfRange 0xFFFF#16 .read) := by decide
theorem witness_next_request : sample.fault = none ∧
    decode (sample.setPort [0x0FF05000#32, 0xE0000000#32]).port = .ok (.read 0xFF05, [0xE0000000#32]) := by decide
theorem witness_idle : sample.fault = none ∧ sample.port = [] ∧
    decode (sample.setPort [0xA0000001#32]).port = .error .incomplete := by decide
theorem witness_stream : ∀ i ∈ [Instr.reset, .loadCart [0x31#8], .read 0xFFFF],
    i.wellFormed = true ∧ (requestWords i).isSome = true := by decide

end Sys2Proof.Machine
end

section
/-! PROOFS. The statements of spec/00_scope.md: the check of the parameters and the next request. -/

namespace Sys2Proof

/-- All entries of the rate table, as its list and by index. -/
theorem forall_mem_rateTable_iff (rates : Vector Nat 4) :
    (∀ x ∈ rates.toList, 1 ≤ x) ↔ ∀ k (h : k < 4), 1 ≤ rates[k] := by
  rw [List.forall_mem_iff_getElem]
  simp

/-- The check of a parameter set, constraint by constraint (00_scope R9): the region table in order and total, one region
of each role with the base and size R8 gives it, the five offsets, the periods. -/
theorem Params.valid_iff (p : Params) : p.valid = true ↔
    (∀ k (h : k < p.regionTable.length),
      (p.regionTable[k]).start = ((p.regionTable.take k).map Region.size).sum) ∧
    (p.regionTable.map Region.size).sum = p.totalSize ∧
    (p.regionTable.map Region.name).count .regs = 1 ∧
    (p.regionTable.map Region.name).count .cart = 1 ∧
    (∀ r ∈ p.regionTable, r.name = .regs → r.start = p.regBase ∧ r.size = p.regSize) ∧
    (∀ r ∈ p.regionTable, r.name = .cart → r.size = p.cartSize) ∧
    p.offsets.Nodup ∧
    (∀ off ∈ p.offsets, off < p.regSize) ∧
    (∀ k (h : k < 4), 1 ≤ p.rateTable[k]) ∧ 1 ≤ p.divPeriod := by
  simp only [Params.valid, Bool.and_eq_true, beq_iff_eq, decide_eq_true_eq, List.all_eq_true, regionsContiguous_iff,
    Nat.zero_add, map_filter_eq_singleton, Prod.mk.injEq, forall_mem_rateTable_iff]
  constructor
  · rintro ⟨⟨⟨⟨⟨⟨⟨hstart, hsum⟩, hregs, hregs'⟩, hcart, hcart'⟩, hnodup⟩, hoff⟩, hrate⟩, hdiv⟩
    exact ⟨hstart, hsum, hregs, hcart, hregs', hcart', hnodup, hoff, hrate, hdiv⟩
  · rintro ⟨hstart, hsum, hregs, hcart, hregs', hcart', hnodup, hoff, hrate, hdiv⟩
    exact ⟨⟨⟨⟨⟨⟨⟨hstart, hsum⟩, hregs, hregs'⟩, hcart, hcart'⟩, hnodup⟩, hoff⟩, hrate⟩, hdiv⟩

namespace Machine

theorem initialState_of_valid {p : Params} (h : p.valid = true) : initialState p = .next State.reset := if_pos h

theorem initialState_of_invalid {p : Params} (h : ¬ p.valid = true) : initialState p = .refused .invalidParameters :=
  if_neg h

/-- Settles O3: the check holds of exactly the parameter sets that meet R9's constraints, and initialization branches on
the check. -/
theorem parametersAreCheckedAtInitialization : Obligations.ParametersAreCheckedAtInitialization := by
  unfold Obligations.ParametersAreCheckedAtInitialization
  refine ⟨(Params.valid_iff _).mp (by decide), fun p hp => ?_, fun p hp => ?_⟩
  · exact initialState_of_invalid (mt p.valid_iff.mp hp)
  · exact initialState_of_valid (p.valid_iff.mpr hp)

/-- A port whose words begin with a request gives that request: it is not empty, so it is decoded. -/
theorem fetchRequest_of_decode_ok {port rest : List Word} {i : Instr} (hd : decode port = .ok (i, rest)) :
    fetchRequest port = .request i rest := by
  cases port with
  | nil => simp [decode] at hd
  | cons w ws => simp [fetchRequest, hd]

/-- With no fault recorded, the state fetches what its port gives. -/
theorem fetch_of_no_fault {s : State} (hf : s.fault = none) : fetch s = fetchRequest s.port := by
  simp [fetch, hf]

/-- Settles O51: with no fault recorded the port's request is fetched, and a fetched request is executed on the state
whose port holds the words after it. -/
theorem stepPerformsTheNextRequest : Obligations.StepPerformsTheNextRequest := by
  intro s i rest hf hd
  have hfetch : fetch s = .request i rest := (fetch_of_no_fault hf).trans (fetchRequest_of_decode_ok hd)
  rw [step, hfetch]
  rfl

end Machine
end Sys2Proof
end

section
/-! SUPPORT. What an instruction can do when it answers a next state, said once for all rows of the opcode table: every
READ, WRITE and address decode row is a façade access, a write changes the one element its address selects, and the other
instructions each have their one effect. -/

namespace Sys2Proof.Machine

variable {s t u : State}

/-! ## Every access is the façade's -/

theorem region_end_le : ∀ r ∈ Config.regionTable, r.start + r.size ≤ 0x10000 := by decide

/-- No two rows of the region table overlap (00_scope R9). -/
theorem regions_disjoint : ∀ r ∈ Config.regionTable, ∀ r' ∈ Config.regionTable,
    r = r' ∨ r.start + r.size ≤ r'.start ∨ r'.start + r'.size ≤ r.start := by decide

/-- The row that an address resolves to is in the region table and contains the address. -/
theorem mem_of_resolve {a : Nat} {r : Region} (hr : resolve a = some r) :
    r ∈ Config.regionTable ∧ r.start ≤ a ∧ a < r.start + r.size := by
  unfold resolve at hr
  split at hr
  · cases hr
  · exact ⟨List.mem_of_find?_eq_some hr, by simpa [regionContains] using List.find?_some hr⟩

/-- An address inside the span of a row of the region table resolves to that row (20_memory R52). -/
theorem resolve_eq_some {r : Region} {a : Nat} (hmem : r ∈ Config.regionTable) (hlo : r.start ≤ a)
    (hhi : a < r.start + r.size) : resolve a = some r := by
  have hend := region_end_le r hmem
  have hsome : resolve a ≠ none := fun h => by have := resolve_none_iff.mp h; omega
  obtain ⟨r', hr'⟩ := Option.ne_none_iff_exists'.mp hsome
  obtain ⟨hmem', hlo', hhi'⟩ := mem_of_resolve hr'
  rcases regions_disjoint r hmem r' hmem' with rfl | h | h
  · exact hr'
  · omega
  · omega

theorem facade_of_resolve {a : Nat} {r : Region} (hr : resolve a = some r) (acc : Access) (s : State) :
    facade acc a s = rowAccess acc (readRegion r a) (writeRegion r a) s := by
  simp only [facade, rowAccess, hr]

theorem facade_outOfRange {a : Nat} (ha : 0x10000 ≤ a) (acc : Access) (s : State) :
    facade acc a s = unlessFaulted s (raise (.outOfRange a) s.start) := by
  have hr : resolve a = none := resolve_none_iff.mpr ha
  simp only [facade, hr]

/-- An access to the register region is the register bank's. -/
theorem facade_regs {off : Nat} (hoff : off < 0x80) (acc : Access) (s : State) :
    facade acc (0xFF00 + off) s = rowAccess acc (regRead off) (regWrite off) s := by
  have hr : resolve (0xFF00 + off) = some ⟨.regs, 0xFF00, 0x0080, .readWrite⟩ :=
    resolve_eq_some (by decide) (Nat.le_add_right _ _) (Nat.add_lt_add_left hoff _)
  have hrd := funext (readRegion_regs (r := ⟨.regs, 0xFF00, 0x0080, .readWrite⟩) rfl rfl off)
  have hwr := funext fun v => funext (writeRegion_regs (r := ⟨.regs, 0xFF00, 0x0080, .readWrite⟩) rfl rfl off v)
  rw [facade_of_resolve hr, hrd, hwr]

/-- An access to a RAM region is the store's. -/
theorem facade_ram {r : Region} {off : Nat} (hr : r ∈ Config.regionTable) (hn : r.name ≠ .regs)
    (hp : r.policy = .readWrite) (hoff : off < r.size) (acc : Access) (s : State) :
    facade acc (r.start + off) s = ramRow r.start off acc s := by
  have hrd := funext (readRegion_store hn (by simp [hp]) (r.start + off))
  have hwr := funext fun v => funext (writeRegion_store hn hp (r.start + off) v)
  rw [facade_of_resolve (resolve_eq_some hr (Nat.le_add_right _ _) (Nat.add_lt_add_left hoff _)), hrd, hwr]
  rfl

/-- An access to the forbidden region reads the sentinel and absorbs the write. -/
theorem facade_forbidden {a : Nat} (hlo : 0xE000 ≤ a) (hhi : a < 0xFE00) (acc : Access) (s : State) :
    facade acc a s = forbiddenRow acc s := by
  have hr : resolve a = some ⟨.forbidden, 0xE000, 0x1E00, .forbidden⟩ := resolve_eq_some (by decide) hlo hhi
  rw [facade_of_resolve hr]
  rfl

/-- An access to the cartridge region reads the store and absorbs the write. -/
theorem facade_cart {a : Nat} (ha : a < 0x8000) (acc : Access) (s : State) :
    facade acc a s = rowAccess acc (storeRead a) absorb s := by
  have hr : resolve a = some ⟨.cart, 0x0000, 0x8000, .readOnly⟩ :=
    resolve_eq_some (by decide) (Nat.zero_le _) (by simpa using ha)
  rw [facade_of_resolve hr]
  rfl

/-- A READ, a WRITE and every address decode row is the façade access of its address (30_encoding R87). -/
theorem exec_eq_facade {i : Instr} {acc : Access} {a : Nat} (h : accessOf i = some (acc, a)) (s : State) :
    exec i s = facade acc a s := by
  cases i <;> cases h
  case read | write => rfl
  case addrOutOfRange x => exact (facade_outOfRange (Nat.le_add_right _ _) acc s).symm
  case addrJoyp => exact (facade_regs (off := 0) (by decide) acc s).symm
  case addrDiv => exact (facade_regs (off := 4) (by decide) acc s).symm
  case addrTima => exact (facade_regs (off := 5) (by decide) acc s).symm
  case addrTma => exact (facade_regs (off := 6) (by decide) acc s).symm
  case addrTac => exact (facade_regs (off := 7) (by decide) acc s).symm
  case addrRegsPlain x => exact (facade_regs x.isLt acc s).symm
  case addrStack x => exact (facade_ram (r := ⟨.stack, 0xFF80, 0x0080, .readWrite⟩) (by decide) nofun rfl x.isLt acc s).symm
  case addrOam x => exact (facade_ram (r := ⟨.oam, 0xFE00, 0x0100, .readWrite⟩) (by decide) nofun rfl x.isLt acc s).symm
  case addrForbiddenE x => exact (facade_forbidden (by omega) (by omega) acc s).symm
  case addrForbiddenF0 x => exact (facade_forbidden (by omega) (by omega) acc s).symm
  case addrForbiddenF8 x => exact (facade_forbidden (by omega) (by omega) acc s).symm
  case addrForbiddenFC x => exact (facade_forbidden (by omega) (by omega) acc s).symm
  case addrWram x => exact (facade_ram (r := ⟨.wram, 0xC000, 0x2000, .readWrite⟩) (by decide) nofun rfl x.isLt acc s).symm
  case addrExtram x =>
    exact (facade_ram (r := ⟨.extram, 0xA000, 0x2000, .readWrite⟩) (by decide) nofun rfl x.isLt acc s).symm
  case addrVram x => exact (facade_ram (r := ⟨.vram, 0x8000, 0x2000, .readWrite⟩) (by decide) nofun rfl x.isLt acc s).symm
  case addrCart x => exact (facade_cart x.isLt acc s).symm

/-! ## What a write changes -/

/-- The state `u` that a write of `v` to the valid address `a` leaves: one element of `s` is written, or the write is
absorbed (40_facade R103, 41_register_bank R131, 60_exceptions R214). -/
inductive Written (a : Nat) (v : Byte) (s : State) : State → Prop where
  | absorbed (ha : a < 0x8000 ∨ (0xE000 ≤ a ∧ a < 0xFE00)) : Written a v s s
  | store (ha : 0x8000 ≤ a) (hb : backed a = true) : Written a v s (s.setStore (s.store.write a v))
  | sel (ha : a = 0xFF00) : Written a v s (s.setSel (selectorOf v))
  | divider (ha : a = 0xFF04) : Written a v s (s.setDivider 0 0)
  | tima (ha : a = 0xFF05) : Written a v s (s.setTima v)
  | tma (ha : a = 0xFF06) : Written a v s (s.setTma v)
  | tac (ha : a = 0xFF07) : Written a v s (s.setTac v)

theorem backed_iff {a : Nat} : backed a = true ↔ a < 0xE000 ∨ (0xFE00 ≤ a ∧ a < 0x10000 ∧
    a ≠ 0xFF00 ∧ a ≠ 0xFF04 ∧ a ≠ 0xFF05 ∧ a ≠ 0xFF06 ∧ a ≠ 0xFF07) := by
  simp [backed, and_assoc]

theorem written_regWrite {off : Nat} (hoff : off < 0x80) (v : Byte) (s : State) :
    Written (0xFF00 + off) v s (regWrite off v s) := by
  rw [regWrite_eq]
  split_ifs with h0 h4 h5 h6 h7
  · exact .sel (by omega)
  · exact .divider (by omega)
  · exact .tima (by omega)
  · exact .tma (by omega)
  · exact .tac (by omega)
  · exact .store (by omega) (backed_iff.mpr (by omega))

theorem region_regs : ∀ r ∈ Config.regionTable, r.name = .regs →
    r.policy = .readWrite ∧ r.start = 0xFF00 ∧ r.size = 0x80 := by decide

/-- The rows a write stores to lie outside region FORBIDDEN and the register region. -/
theorem region_ram_bounds : ∀ r ∈ Config.regionTable, r.name ≠ .regs → r.policy = .readWrite →
    0x8000 ≤ r.start ∧ (r.start + r.size ≤ 0xE000 ∨ (0xFE00 ≤ r.start ∧ r.start + r.size ≤ 0xFF00) ∨
      (0xFF80 ≤ r.start ∧ r.start + r.size ≤ 0x10000)) := by decide

/-- The rows that absorb a write are the cartridge and region FORBIDDEN. -/
theorem region_absorbing_bounds : ∀ r ∈ Config.regionTable, r.policy ≠ .readWrite →
    r.start + r.size ≤ 0x8000 ∨ (0xE000 ≤ r.start ∧ r.start + r.size ≤ 0xFE00) := by decide

theorem written_writeRegion {a : Nat} {r : Region} (hr : resolve a = some r) (v : Byte) (s : State) :
    Written a v s (writeRegion r a v s) := by
  obtain ⟨hmem, hlo, hhi⟩ := mem_of_resolve hr
  by_cases hn : r.name = .regs
  · obtain ⟨hp, hstart, hsize⟩ := region_regs r hmem hn
    obtain ⟨off, rfl⟩ : ∃ off, a = 0xFF00 + off := Nat.exists_eq_add_of_le (hstart ▸ hlo)
    rw [writeRegion_regs hn hp]
    exact written_regWrite (by omega) v s
  · by_cases hp : r.policy = .readWrite
    · have hbounds := region_ram_bounds r hmem hn hp
      rw [writeRegion_store hn hp]
      exact .store (by omega) (backed_iff.mpr (by omega))
    · have hbounds := region_absorbing_bounds r hmem hp
      rw [writeRegion_absorbed hp]
      exact .absorbed (by omega)

namespace Written

variable {a : Nat} {v : Byte}

/-- A write keeps the latches, TACC, TIRQ, STARTED and FAULT. -/
theorem frame (h : Written a v s u) : u.btn0 = s.btn0 ∧ u.btn1 = s.btn1 ∧ u.tacc = s.tacc ∧ u.tirq = s.tirq ∧
    u.started = s.started ∧ u.fault = s.fault := by
  cases h <;> simp

theorem sel_changed (h : Written a v s u) (hne : u.sel ≠ s.sel) : a = 0xFF00 := by
  cases h with
  | sel ha => exact ha
  | _ => exact absurd rfl hne

theorem tma_changed (h : Written a v s u) (hne : u.tma ≠ s.tma) : a = 0xFF06 := by
  cases h with
  | tma ha => exact ha
  | _ => exact absurd rfl hne

theorem tac_changed (h : Written a v s u) (hne : u.tac ≠ s.tac) : a = 0xFF07 := by
  cases h with
  | tac ha => exact ha
  | _ => exact absurd rfl hne

/-- A write keeps every byte of a canonical store but the one it stores. -/
theorem store_read (h : Written a v s u) (hwf : s.store.wf = true) {x : Nat}
    (hx : ¬ (x = a ∧ 0x8000 ≤ x ∧ backed x = true)) : u.store.read x = s.store.read x := by
  cases h with
  | store ha hb =>
    have hxa : x ≠ a := by rintro rfl; exact hx ⟨rfl, ha, hb⟩
    simp [Memory.read_write hwf, hxa]
  | _ => rfl

end Written

/-! ## What an instruction changes -/

/-- The state that an instruction leaves when it completes on `s`, with no fault recorded: the effect of each kind of
instruction, under its guard. -/
inductive Effect (s : State) : Instr → State → Prop where
  | outOfRange {i : Instr} {acc : Access} {a : Nat} (hi : accessOf i = some (acc, a)) (ha : 0x10000 ≤ a) :
      Effect s i ((s.start.setFault (.outOfRange a)).setResponse (.outOfRange a))
  | read {i : Instr} {a : Nat} {r : Region} (hi : accessOf i = some (.read, a)) (hr : resolve a = some r) :
      Effect s i (s.start.setResponse (.ok (readRegion r a s.start)))
  | write {i : Instr} {a : Nat} {v : Byte} {u : State} (hi : accessOf i = some (.write v, a))
      (hw : Written a v s.start u) : Effect s i (u.setResponse (.ok 0))
  | tick (n : Nat) : Effect s (.tick n) ((timerAdvance n (dividerAdvance n s.start)).setResponse (.ok 0))
  | pushButtons (g0 g1 : Nibble) : Effect s (.pushButtons g0 g1) ((s.setButtons g0 g1).setResponse (.ok 0))
  | ackTimerIrq : Effect s .ackTimerIrq ((s.setTirq false).setResponse (.ok 0))
  | loadExceeds {bytes : List Byte} (hs : s.started = false) (hl : 0x8000 < bytes.length) :
      Effect s (.loadCart bytes)
        ((s.setFault (.capacityExceeded bytes.length)).setResponse (.capacityExceeded bytes.length))
  | loadFits {bytes : List Byte} (hs : s.started = false) (hl : bytes.length ≤ 0x8000) :
      Effect s (.loadCart bytes) ((s.setStore (s.store.load 0 bytes)).setResponse (.ok 0))
  | loadData (p : BitVec 15) (b : Byte) (hs : s.started = false) :
      Effect s (.loadCartData p b) ((s.setStore (s.store.write p.toNat b)).setResponse (.ok 0))
  | reset : Effect s .reset ((State.reset.setPort s.port).setResponse (.ok 0))

theorem effect_of_facade {i : Instr} {acc : Access} {a : Nat} (hi : accessOf i = some (acc, a))
    (h : facade acc a s = .next t) : s.fault = none ∧ Effect s i t := by
  obtain ⟨hf, ⟨ha, rfl⟩ | ⟨r, hr, hacc⟩⟩ := facade_next.mp h
  · exact ⟨hf, .outOfRange hi ha⟩
  · obtain ⟨rfl, rfl⟩ | ⟨v, rfl, rfl⟩ := access_next.mp hacc
    · exact ⟨hf, .read hi hr⟩
    · exact ⟨hf, .write hi (written_writeRegion hr v _)⟩

theorem effect_of_loadCart {bytes : List Byte} (h : execLoadCart bytes s = .next t) :
    s.fault = none ∧ Effect s (.loadCart bytes) t := by
  obtain ⟨hf, hbody⟩ := unlessFaulted_next.mp h
  obtain ⟨hs, -⟩ := unlessStarted_next.mp hbody
  refine ⟨hf, ?_⟩
  by_cases hl : bytes.length ≤ 0x8000
  · obtain rfl : _ = t := by simpa using (execLoadCart_fits hf hs hl).symm.trans h
    exact .loadFits hs hl
  · obtain rfl : _ = t := by simpa using (execLoadCart_exceeds hf hs (Nat.lt_of_not_le hl)).symm.trans h
    exact .loadExceeds hs (Nat.lt_of_not_le hl)

/-- A request that only responds does so when no fault is recorded. -/
theorem unlessFaulted_respond_next {v : Byte} :
    unlessFaulted s (respond v u) = .next t ↔ s.fault = none ∧ t = u.setResponse (.ok v) :=
  unlessFaulted_next.trans (and_congr_right fun _ => respond_next)

/-- The inversion of `exec`: an instruction that answers a next state found no fault recorded and had its effect. -/
theorem exec_next {i : Instr} (h : exec i s = .next t) : s.fault = none ∧ Effect s i t := by
  cases hacc : accessOf i with
  | some p => exact effect_of_facade hacc ((exec_eq_facade hacc s).symm.trans h)
  | none =>
    cases i with
    | tick n =>
      obtain ⟨hf, rfl⟩ := unlessFaulted_respond_next.mp h
      exact ⟨hf, .tick n⟩
    | pushButtons g0 g1 =>
      obtain ⟨hf, rfl⟩ := unlessFaulted_respond_next.mp h
      exact ⟨hf, .pushButtons g0 g1⟩
    | ackTimerIrq =>
      obtain ⟨hf, rfl⟩ := unlessFaulted_respond_next.mp h
      exact ⟨hf, .ackTimerIrq⟩
    | loadCart bytes => exact effect_of_loadCart h
    | loadCartData p b =>
      obtain ⟨hf, hbody⟩ := unlessFaulted_next.mp h
      obtain ⟨hs, ht⟩ := unlessStarted_next.mp hbody
      exact ⟨hf, respond_next.mp ht ▸ .loadData p b hs⟩
    | reset =>
      obtain ⟨hf, rfl⟩ := unlessFaulted_respond_next.mp h
      exact ⟨hf, .reset⟩
    | reserved110 x => cases (unlessFaulted_next.mp h).2
    | _ => cases hacc

end Sys2Proof.Machine
end

section
/-! PROOFS. The statements of spec/10_state.md: the invariant, and which instructions change which element. -/

namespace Sys2Proof.Machine

variable {s t u : State}

/-! ## The invariant of each named update -/

/-- The invariant speaks of five elements alone. -/
theorem Inv.congr (h : Inv s) (hstore : t.store = s.store) (hdiv : t.divAcc = s.divAcc) (htacc : t.tacc = s.tacc)
    (hstarted : t.started = s.started) (hfault : t.fault = s.fault) : Inv t where
  store_wf := hstore ▸ h.store_wf
  store_backed := hstore ▸ h.store_backed
  divAcc_lt := hdiv ▸ h.divAcc_lt
  tacc_lt := htacc ▸ h.tacc_lt
  fault_genuine := hfault ▸ h.fault_genuine
  fault_started := by rw [hfault, hstarted]; exact h.fault_started

theorem Inv.setResponse (h : Inv s) (r : Response) : Inv (s.setResponse r) := h.congr rfl rfl rfl rfl rfl

theorem Inv.setPort (h : Inv s) (ws : List Word) : Inv (s.setPort ws) := h.congr rfl rfl rfl rfl rfl

theorem Inv.setStore (h : Inv s) {m : Memory} (hwf : m.wf = true) (hb : ∀ c ∈ m, backed c.1 = true) :
    Inv (s.setStore m) where
  store_wf := hwf
  store_backed := hb
  divAcc_lt := h.divAcc_lt
  tacc_lt := h.tacc_lt
  fault_genuine := h.fault_genuine
  fault_started := h.fault_started

theorem Inv.setDivider (h : Inv s) (d : Byte) {n : Nat} (hn : n < 256) : Inv (s.setDivider d n) where
  store_wf := h.store_wf
  store_backed := h.store_backed
  divAcc_lt := hn
  tacc_lt := h.tacc_lt
  fault_genuine := h.fault_genuine
  fault_started := h.fault_started

theorem Inv.setTacc (h : Inv s) {n : Nat} (hn : n < 1024) : Inv (s.setTacc n) where
  store_wf := h.store_wf
  store_backed := h.store_backed
  divAcc_lt := h.divAcc_lt
  tacc_lt := hn
  fault_genuine := h.fault_genuine
  fault_started := h.fault_started

theorem Inv.start (h : Inv s) (hf : s.fault = none) : Inv s.start where
  store_wf := h.store_wf
  store_backed := h.store_backed
  divAcc_lt := h.divAcc_lt
  tacc_lt := h.tacc_lt
  fault_genuine := h.fault_genuine
  fault_started := by simp [hf]

/-- A genuine error may be recorded where STARTED is what its request leaves. -/
theorem Inv.setFault (h : Inv s) {r : Fault} (hr : r.genuine) (hs : s.started = r.startedThen) :
    Inv (s.setFault r) where
  store_wf := h.store_wf
  store_backed := h.store_backed
  divAcc_lt := h.divAcc_lt
  tacc_lt := h.tacc_lt
  fault_genuine := by rintro _ ⟨⟩; exact hr
  fault_started := by rintro _ ⟨⟩; exact hs

/-! ## The invariant of each operation -/

theorem backed_lt {a : Nat} (h : backed a = true) : a < Config.totalSize := by
  have := backed_iff.mp h
  unfold Config.totalSize
  omega

/-- A byte stored to an address that requests reach keeps the invariant. -/
theorem Inv.storeByte (h : Inv s) {a : Nat} (ha : backed a = true) (v : Byte) :
    Inv (s.setStore (s.store.write a v)) := by
  refine h.setStore (Memory.wf_write h.store_wf (backed_lt ha) v) fun c hc => ?_
  rcases Memory.mem_write hc with rfl | hc
  · exact ha
  · exact h.store_backed c hc

/-- An image that fits the cartridge region keeps the invariant. -/
theorem Inv.loadImage (h : Inv s) {bytes : List Byte} (hl : bytes.length ≤ 0x8000) :
    Inv (s.setStore (s.store.load 0 bytes)) := by
  refine h.setStore (Memory.wf_load h.store_wf (by unfold Config.totalSize; omega)) fun c hc => ?_
  rcases Memory.mem_load hc with ⟨-, hlt⟩ | hc
  · exact backed_iff.mpr (by omega)
  · exact h.store_backed c hc

theorem Inv.written (h : Inv s) {a : Nat} {v : Byte} (hw : Written a v s u) : Inv u := by
  cases hw with
  | absorbed => exact h
  | store _ hb => exact h.storeByte hb v
  | divider => exact h.setDivider 0 (by decide)
  | sel | tima | tma | tac => exact h.congr rfl rfl rfl rfl rfl

theorem Inv.dividerAdvance (h : Inv s) (n : Nat) : Inv (dividerAdvance n s) := by
  rw [dividerAdvance_eq]
  exact h.setDivider _ (Nat.mod_lt _ (by decide))

theorem Inv.timerAdvance (h : Inv s) (n : Nat) : Inv (timerAdvance n s) := by
  rw [timerAdvance_eq]
  have hlt := (Nat.mod_lt (s.tacc + n) (timerPeriod_pos s.tac)).trans_le (timerPeriod_le s.tac)
  exact (h.setTacc hlt).congr rfl rfl rfl rfl rfl

/-- Settles O4: the store is empty, the accumulators are 0 and no fault is recorded. -/
theorem resetStateMeetsTheInvariant : Obligations.ResetStateMeetsTheInvariant where
  store_wf := Memory.wf_nil
  store_backed := nofun
  divAcc_lt := by decide
  tacc_lt := by decide
  fault_genuine := nofun
  fault_started := nofun

/-- Every instruction keeps the invariant. -/
theorem Inv.effect {i : Instr} (h : Inv s) (hf : s.fault = none) (he : Effect s i t) : Inv t := by
  cases he with
  | outOfRange _ ha => exact ((h.start hf).setFault (r := .outOfRange _) ha rfl).setResponse _
  | read => exact (h.start hf).setResponse _
  | write _ hw => exact ((h.start hf).written hw).setResponse _
  | tick n => exact (((h.start hf).dividerAdvance n).timerAdvance n).setResponse _
  | pushButtons | ackTimerIrq => exact h.congr rfl rfl rfl rfl rfl
  | loadExceeds hs hl => exact (h.setFault (r := .capacityExceeded _) hl hs).setResponse _
  | loadFits _ hl => exact (h.loadImage hl).setResponse _
  | loadData p b => exact (h.storeByte (backed_iff.mpr (by omega)) b).setResponse _
  | reset => exact (resetStateMeetsTheInvariant.setPort _).setResponse _

/-- Settles O5: a step keeps the state, or performs an instruction on the state with the rest of the port, and every
effect of an instruction keeps the invariant. -/
theorem everyStepKeepsTheInvariant : Obligations.EveryStepKeepsTheInvariant := by
  intro s t hinv hstep
  obtain ⟨-, ⟨rfl, -⟩ | ⟨i, rest, -, hexec⟩⟩ := step_next hstep
  · exact hinv
  · obtain ⟨hf, he⟩ := exec_next hexec
    exact (hinv.setPort rest).effect hf he

/-! ## Which instructions change which element -/

/-- TICK moves nothing but the timer's own elements and STARTED. -/
theorem tick_frame (n : Nat) (s : State) : let t := timerAdvance n (dividerAdvance n s)
    t.store = s.store ∧ t.sel = s.sel ∧ t.btn0 = s.btn0 ∧ t.btn1 = s.btn1 ∧ t.tma = s.tma ∧ t.tac = s.tac ∧
    t.started = s.started := by
  simp [timerAdvance_eq, dividerAdvance_eq]

/-- Settles O39: of the effects, only those of TICK, ACK_TIMER_IRQ and RESET touch TIRQ, and the last two clear it. -/
theorem timerFlagChangesOnlyByTickAckReset : Obligations.TimerFlagChangesOnlyByTickAckReset := by
  intro i s t h
  cases (exec_next h).2 with
  | write _ hw => simp +contextual [hw.frame]
  | tick n => exact ⟨fun _ => .inl ⟨n, rfl⟩, fun _ _ => ⟨n, rfl⟩⟩
  | ackTimerIrq => simp
  | reset => simp [State.reset]
  | _ => simp +contextual

/-- Settles O40: of the effects, only PUSH_BUTTONS touches the latches, and of the writes only that of JOYP the selector. -/
theorem inputMatrixChangesOnlyByItsWriters : Obligations.InputMatrixChangesOnlyByItsWriters := by
  intro i s t h hreset
  cases (exec_next h).2 with
  | write hi hw =>
    refine ⟨by simp [hw.frame], fun hne => ?_⟩
    exact ⟨_, hw.sel_changed hne ▸ hi⟩
  | tick n => simp [tick_frame]
  | pushButtons g0 g1 => simp
  | reset => exact absurd rfl hreset
  | _ => simp

/-- Settles O42: of the effects other than RESET's, only the writes of the two registers touch them. -/
theorem timerSetupChangesOnlyByItsWrites : Obligations.TimerSetupChangesOnlyByItsWrites := by
  intro i s t h hreset
  cases (exec_next h).2 with
  | write hi hw => exact ⟨fun hne => ⟨_, hw.tma_changed hne ▸ hi⟩, fun hne => ⟨_, hw.tac_changed hne ▸ hi⟩⟩
  | tick n => simp [tick_frame]
  | reset => exact absurd rfl hreset
  | _ => simp

theorem started_of_access {i : Instr} {p : Access × Nat} (hi : accessOf i = some p) (ht : t.started = true) :
    (startsOperation i → t.started = true) ∧ (i = .reset → t.started = false) ∧
      (¬ startsOperation i → i ≠ .reset → t.started = s.started) := by
  have hstarts : startsOperation i := .inl (by simp [hi])
  refine ⟨fun _ => ht, ?_, fun hn => absurd hstarts hn⟩
  rintro rfl
  cases hi

/-- Settles O43: the accesses and TICK begin by setting STARTED, RESET clears it, and the other effects leave it. -/
theorem startedMarksTheFirstAccessOrTick : Obligations.StartedMarksTheFirstAccessOrTick := by
  intro i s t h
  cases (exec_next h).2 with
  | outOfRange hi | read hi => exact started_of_access hi rfl
  | write hi hw => exact started_of_access hi (by simp [hw.frame])
  | tick n => simp [startsOperation, tick_frame]
  | reset => simp [startsOperation, accessOf, State.reset]
  | _ => simp [startsOperation, accessOf]

/-- Settles O44: a write keeps every byte but the one it stores, a load every byte outside the loaded positions, and the
other effects keep the store. -/
theorem storeChangesOnlyWhereStoredTo : Obligations.StoreChangesOnlyWhereStoredTo := by
  intro i s t hinv h a ha
  cases (exec_next h).2 with
  | write hi hw =>
    refine hw.store_read (s := s.start) hinv.store_wf ?_
    rintro ⟨rfl, hlo, hb⟩
    exact ha (.inl ⟨⟨_, hi⟩, hlo, hb⟩)
  | tick n => simp [tick_frame]
  | @loadFits bytes _ hl =>
    have hlong : ¬ a < bytes.length := fun hlt => ha (.inr (.inl ⟨bytes, rfl, hlt⟩))
    have hfits : 0 + bytes.length ≤ Config.totalSize := by unfold Config.totalSize; omega
    simp [Memory.read_load hinv.store_wf a hfits, hlong]
  | loadData p b =>
    have hne : a ≠ p.toNat := fun h => ha (.inr (.inr (.inl ⟨p, b, rfl, h⟩)))
    simp [Memory.read_write hinv.store_wf, hne]
  | reset => exact absurd (.inr (.inr (.inr rfl))) ha
  | _ => rfl

/-! ## The upper bits of TAC -/

theorem timerPeriod_congr {v w : Byte} (h : v.extractLsb' 0 3 = w.extractLsb' 0 3) :
    timerPeriod v = timerPeriod w := by
  have hclk (x : Byte) : clkSel x = (x.extractLsb' 0 3).extractLsb' 0 2 :=
    (BitVec.extractLsb'_extractLsb'_of_le (by decide)).symm
  simp only [timerPeriod, hclk, h]

theorem timerEnabled_congr {v w : Byte} (h : v.extractLsb' 0 3 = w.extractLsb' 0 3) :
    timerEnabled v = timerEnabled w := by
  have hen (x : Byte) : timerEnabled x = (x.extractLsb' 0 3).getLsbD 2 := by simp [timerEnabled]
  rw [hen, hen, h]

/-- A TAC with the same rate and enable takes the same advance (42_timer R172). -/
theorem timerAdvance_setTac {v w : Byte} (hp : timerPeriod v = timerPeriod w) (he : timerEnabled v = timerEnabled w)
    (n : Nat) (s : State) : timerAdvance n (s.setTac w) = (timerAdvance n (s.setTac v)).setTac w := by
  have hk : timerIncrements (s.setTac w) n = timerIncrements (s.setTac v) n := by
    rw [timerIncrements, timerIncrements, State.setTac_tac, State.setTac_tac, he, hp]
    rfl
  obtain ⟨htima, htirq⟩ :=
    counterIncrements_congr (timerIncrements (s.setTac v) n) (s.setTac w) (s.setTac v) rfl rfl rfl
  rw [timerAdvance_eq, timerAdvance_eq, hk, htima, htirq, State.setTac_tac, State.setTac_tac, hp]
  rfl

/-- Settles O28: the advance looks at TAC's rate and enable alone, which are fields of bits 2:0. -/
theorem upperTacBitsDoNotReachTheTimer : Obligations.UpperTacBitsDoNotReachTheTimer := by
  intro s v w n hf hvw
  have htick (x : Byte) (hx : v.extractLsb' 0 3 = x.extractLsb' 0 3) : exec (.tick n) (s.setTac x) =
      respond 0 ((timerAdvance n ((dividerAdvance n s.start).setTac v)).setTac x) := by
    refine (unlessFaulted_none hf _).trans (congrArg (respond 0) ?_)
    exact timerAdvance_setTac (timerPeriod_congr hx) (timerEnabled_congr hx) n (dividerAdvance n s.start)
  exact ⟨(timerAdvance n ((dividerAdvance n s.start).setTac v)).setResponse (.ok 0), htick v rfl, htick w hvw⟩

end Sys2Proof.Machine
end

section
/-! SUPPORT. A READ or WRITE of a valid address as a next state, a write repeated, the refusal of every instruction after
a fault, and the two ports, which no instruction looks at. -/

namespace Sys2Proof.Machine

variable {s : State}

/-! ## Accesses with no fault recorded -/

theorem rowAccess_read (hf : s.fault = none) (rd : State → Byte) (wr : Byte → State → State) :
    rowAccess .read rd wr s = .next (s.start.setResponse (.ok (rd s.start))) :=
  unlessFaulted_none hf _

theorem rowAccess_write (hf : s.fault = none) (v : Byte) (rd : State → Byte) (wr : Byte → State → State) :
    rowAccess (.write v) rd wr s = .next ((wr v s.start).setResponse (.ok 0)) :=
  unlessFaulted_none hf _

theorem forbiddenRow_read (hf : s.fault = none) : forbiddenRow .read s = .next (s.start.setResponse (.ok 0)) :=
  rowAccess_read hf _ _

theorem forbiddenRow_write (hf : s.fault = none) (v : Byte) :
    forbiddenRow (.write v) s = .next (s.start.setResponse (.ok 0)) :=
  rowAccess_write hf v _ absorb

/-- A valid address has a region (20_memory R50, R52). -/
theorem resolve_of_lt {a : Nat} (ha : a < 0x10000) : ∃ r, resolve a = some r :=
  Option.ne_none_iff_exists'.mp (mt resolve_none_iff.mp (Nat.not_le.mpr ha))

/-- READ of an address of region `r`, with no fault recorded (40_facade R100). -/
theorem exec_read_of_resolve {a : Nat} {r : Region} (hf : s.fault = none) (hr : resolve a = some r) :
    exec (.read a) s = .next (s.start.setResponse (.ok (readRegion r a s.start))) :=
  (facade_of_resolve hr .read s).trans (rowAccess_read hf _ _)

/-- WRITE of an address of region `r`, with no fault recorded (40_facade R101). -/
theorem exec_write_of_resolve {a : Nat} {r : Region} (hf : s.fault = none) (hr : resolve a = some r) (v : Byte) :
    exec (.write a v) s = .next ((writeRegion r a v s.start).setResponse (.ok 0)) :=
  (facade_of_resolve hr (.write v) s).trans (rowAccess_write hf v _ _)

/-- STARTED is set once (40_facade R104). -/
theorem State.start_eq_self (h : s.started = true) : s.start = s := by
  rw [State.start, ← h]

/-! ## The response port is invisible to a read -/

theorem regRead_setResponse (off : Nat) (s : State) (r : Response) :
    regRead off (s.setResponse r) = regRead off s := by
  unfold regRead
  cases regKind off <;> rfl

theorem readRegion_setResponse (g : Region) (a : Nat) (s : State) (r : Response) :
    readRegion g a (s.setResponse r) = readRegion g a s := by
  unfold readRegion
  rw [regRead_setResponse]
  generalize regRead (a - Config.regBase) s = w
  cases g.policy <;> rfl

/-! ## Writing one value twice -/

/-- The second of two writes to one address is the one that counts. -/
theorem Memory.write_write {m : Memory} (h : m.wf = true) {a : Nat} (ha : a < Config.totalSize) (b b' : Byte) :
    (m.write a b).write a b' = m.write a b' := by
  have hb := Memory.wf_write h ha b
  refine Memory.ext (Memory.wf_write hb ha b') (Memory.wf_write h ha b') fun x => ?_
  rw [Memory.read_write hb, Memory.read_write h, Memory.read_write h]
  by_cases hx : x = a <;> simp [hx]

/-- RegWrite of the value just written changes nothing, whatever response stands between (20_memory R60). -/
theorem regWrite_regWrite (hwf : s.store.wf = true) {off : Nat} (hoff : off < 0x80) (v : Byte) (r : Response) :
    regWrite off v ((regWrite off v s).setResponse r) = (regWrite off v s).setResponse r := by
  have hlt : 0xFF00 + off < Config.totalSize := by unfold Config.totalSize; omega
  rw [regWrite_eq, regWrite_eq]
  split_ifs
  case neg => exact congrArg (fun m => (s.setStore m).setResponse r) (Memory.write_write hwf hlt v v)
  all_goals rfl

/-- WriteRegion of the value just written changes nothing, whatever response stands between (20_memory R60). -/
theorem writeRegion_writeRegion (hwf : s.store.wf = true) {a : Nat} {g : Region} (hg : resolve a = some g) (v : Byte)
    (r : Response) :
    writeRegion g a v ((writeRegion g a v s).setResponse r) = (writeRegion g a v s).setResponse r := by
  obtain ⟨hmem, hlo, hhi⟩ := mem_of_resolve hg
  by_cases hp : g.policy = .readWrite
  · by_cases hn : g.name = .regs
    · obtain ⟨-, hstart, hsize⟩ := region_regs g hmem hn
      obtain ⟨off, rfl⟩ : ∃ off, a = 0xFF00 + off := Nat.exists_eq_add_of_le (hstart ▸ hlo)
      rw [writeRegion_regs hn hp, writeRegion_regs hn hp]
      exact regWrite_regWrite hwf (by omega) v r
    · have hlt : a < Config.totalSize := hhi.trans_le (region_end_le g hmem)
      rw [writeRegion_store hn hp, writeRegion_store hn hp]
      exact congrArg (fun m => (s.setStore m).setResponse r) (Memory.write_write hwf hlt v v)
  · rw [writeRegion_absorbed hp, writeRegion_absorbed hp]

/-! ## A fault already recorded (60_exceptions R228) -/

/-- The fault check is the first line of every meaning. -/
theorem exec_afterFault {f : Fault} (hf : s.fault = some f) (i : Instr) : exec i s = .refused .afterFault := by
  cases i <;> exact unlessFaulted_some hf _

/-- A step performs the request its port begins with, the refusal after a fault included. -/
theorem step_of_decode_ok {i : Instr} {rest : List Word} (hd : decode s.port = .ok (i, rest)) :
    step s = exec i (s.setPort rest) := by
  cases hf : s.fault with
  | none => exact stepPerformsTheNextRequest s i rest hf hd
  | some f =>
    have hport : s.port ≠ [] := fun h => by rw [h] at hd; cases hd
    have hfetch : fetch s = .afterFault := by simp [fetch, hf, hport]
    rw [step, hfetch, exec_afterFault (s := s.setPort rest) hf]

/-! ## The request port is invisible to every instruction (log entries 1, 10) -/

/-- The outcome with the words `ws` on the port of its next state. -/
def withPort (ws : List Word) : Outcome → Outcome
  | .next t => .next (t.setPort ws)
  | .fault r => .fault r
  | .refused r => .refused r

theorem unlessFaulted_setPort (ws : List Word) {body body' : Outcome} (h : body' = withPort ws body) :
    unlessFaulted (s.setPort ws) body' = withPort ws (unlessFaulted s body) := by
  subst h
  cases hf : s.fault with
  | none => rw [unlessFaulted_none hf, unlessFaulted_none (s := s.setPort ws) hf]
  | some r => rw [unlessFaulted_some hf, unlessFaulted_some (s := s.setPort ws) hf]; rfl

theorem unlessStarted_setPort (ws : List Word) {body body' : Outcome} (h : body' = withPort ws body) :
    unlessStarted (s.setPort ws) body' = withPort ws (unlessStarted s body) := by
  subst h
  cases hs : s.started with
  | false => rw [unlessStarted_false hs, unlessStarted_false (s := s.setPort ws) hs]
  | true => rw [unlessStarted_true hs, unlessStarted_true (s := s.setPort ws) hs]; rfl

theorem facade_setPort (acc : Access) (a : Nat) (s : State) (ws : List Word) :
    facade acc a (s.setPort ws) = withPort ws (facade acc a s) := by
  refine unlessFaulted_setPort ws ?_
  cases resolve a with
  | none => rfl
  | some r =>
    cases acc with
    | read => exact congrArg (fun v => respond v (s.start.setPort ws)) (readRegion_setPort r a s.start ws)
    | write v => exact congrArg (respond 0) (writeRegion_setPort r a v s.start ws)

theorem timerAdvance_setPort (n : Nat) (s : State) (ws : List Word) :
    timerAdvance n (s.setPort ws) = (timerAdvance n s).setPort ws := by
  have hk : timerIncrements (s.setPort ws) n = timerIncrements s n := rfl
  obtain ⟨htima, htirq⟩ := counterIncrements_congr (timerIncrements s n) (s.setPort ws) s rfl rfl rfl
  rw [timerAdvance_eq, timerAdvance_eq, hk, htima, htirq]
  rfl

/-- An instruction does the same whatever words are on the port, and leaves them there. -/
theorem exec_setPort (i : Instr) (s : State) (ws : List Word) : exec i (s.setPort ws) = withPort ws (exec i s) := by
  cases hacc : accessOf i with
  | some p => rw [exec_eq_facade hacc, exec_eq_facade hacc, facade_setPort]
  | none =>
    cases i with
    | tick n =>
      exact unlessFaulted_setPort ws (congrArg (respond 0) (timerAdvance_setPort n (dividerAdvance n s.start) ws))
    | loadCart bytes =>
      refine unlessFaulted_setPort ws (unlessStarted_setPort ws ?_)
      split <;> rfl
    | loadCartData p b => exact unlessFaulted_setPort ws (unlessStarted_setPort ws rfl)
    | pushButtons | ackTimerIrq | reset | reserved110 => exact unlessFaulted_setPort ws rfl
    | _ => cases hacc

end Sys2Proof.Machine
end

section
/-! SUPPORT. The words of each request, read back by the decoder (spec/30_encoding.md R82, R83, R85). A field of a word is
reached by cutting off the fields below it. -/

namespace Sys2Proof

theorem decode_readWord {a : Nat} (ha : a < 2 ^ 17) (rest : List Word) :
    decode ((0b000#3 ++ BitVec.ofNat 17 a ++ 0#12) :: rest) = .ok (.read a, rest) := by
  have hop : opField (0b000#3 ++ BitVec.ofNat 17 a ++ 0#12) = 0b000#3 :=
    (BitVec.extractLsb'_append_eq_of_le (by decide)).trans BitVec.extractLsb'_append_eq_left
  have haddr : BitVec.extractLsb' 12 17 (0b000#3 ++ BitVec.ofNat 17 a ++ 0#12) = BitVec.ofNat 17 a :=
    (BitVec.extractLsb'_append_eq_of_le (by decide)).trans BitVec.extractLsb'_append_eq_right
  rw [decode_cons, if_pos ⟨hop, BitVec.extractLsb'_append_eq_right⟩, haddr, BitVec.toNat_ofNat, Nat.mod_eq_of_lt ha]

theorem decode_writeWord {a : Nat} (ha : a < 2 ^ 17) (v : Byte) (rest : List Word) :
    decode ((0b001#3 ++ BitVec.ofNat 17 a ++ 0#4 ++ v) :: rest) = .ok (.write a v, rest) := by
  have hop : opField (0b001#3 ++ BitVec.ofNat 17 a ++ 0#4 ++ v) = 0b001#3 :=
    (BitVec.extractLsb'_append_eq_of_le (by decide)).trans <|
      (BitVec.extractLsb'_append_eq_of_le (by decide)).trans BitVec.extractLsb'_append_eq_left
  have haddr : BitVec.extractLsb' 12 17 (0b001#3 ++ BitVec.ofNat 17 a ++ 0#4 ++ v) = BitVec.ofNat 17 a :=
    (BitVec.extractLsb'_append_eq_of_le (by decide)).trans <|
      (BitVec.extractLsb'_append_eq_of_le (by decide)).trans BitVec.extractLsb'_append_eq_right
  have hzero : BitVec.extractLsb' 8 4 (0b001#3 ++ BitVec.ofNat 17 a ++ 0#4 ++ v) = 0#4 :=
    (BitVec.extractLsb'_append_eq_of_le (by decide)).trans BitVec.extractLsb'_append_eq_right
  have hv : BitVec.extractLsb' 0 8 (0b001#3 ++ BitVec.ofNat 17 a ++ 0#4 ++ v) = v := BitVec.extractLsb'_append_eq_right
  rw [decode_cons, if_neg (by simp [hop]), if_pos ⟨hop, hzero⟩, haddr, hv, BitVec.toNat_ofNat, Nat.mod_eq_of_lt ha]

theorem decode_tickWord {n : Nat} (hn : n < 2 ^ 29) (rest : List Word) :
    decode ((0b010#3 ++ BitVec.ofNat 29 n) :: rest) = .ok (.tick n, rest) := by
  rw [decode_cons, opField_append, low_append, BitVec.toNat_ofNat, Nat.mod_eq_of_lt hn]
  simp

theorem decode_loadCartWords {bytes : List Byte} (hl : bytes.length < 2 ^ 29) (rest : List Word) :
    decode ((0b101#3 ++ BitVec.ofNat 29 bytes.length) :: (bytes.map dataWord ++ rest)) =
      .ok (.loadCart bytes, rest) := by
  rw [decode_cons, opField_append, low_append, BitVec.toNat_ofNat, Nat.mod_eq_of_lt hl, decodeData_map]
  simp

theorem decode_pushButtonsWord (g0 g1 : Nibble) (rest : List Word) :
    decode ((0b011#3 ++ 0#21 ++ g1 ++ g0) :: rest) = .ok (.pushButtons g0 g1, rest) := by
  have hop : opField (0b011#3 ++ 0#21 ++ g1 ++ g0) = 0b011#3 :=
    (BitVec.extractLsb'_append_eq_of_le (by decide)).trans (BitVec.extractLsb'_append_eq_of_le (by decide))
  have hzero : BitVec.extractLsb' 8 21 (0b011#3 ++ 0#21 ++ g1 ++ g0) = 0#21 :=
    (BitVec.extractLsb'_append_eq_of_le (by decide)).trans (BitVec.extractLsb'_append_eq_of_le (by decide))
  have hg1 : BitVec.extractLsb' 4 4 (0b011#3 ++ 0#21 ++ g1 ++ g0) = g1 :=
    (BitVec.extractLsb'_append_eq_of_le (by decide)).trans BitVec.extractLsb'_append_eq_right
  have hg0 : BitVec.extractLsb' 0 4 (0b011#3 ++ 0#21 ++ g1 ++ g0) = g0 := BitVec.extractLsb'_append_eq_right
  rw [decode_cons, hop, hzero, hg1, hg0]
  simp

theorem decode_reserved110Word (x : BitVec 29) (rest : List Word) :
    decode ((0b110#3 ++ x) :: rest) = .ok (.reserved110 x, rest) := by
  rw [decode_cons, opField_append, low_append]
  simp

namespace Machine

/-- The words of a well-formed request decode to it, whatever words follow (30_encoding R85). -/
theorem decode_requestWords {i : Instr} {ws : List Word} (hi : i.wellFormed = true) (hws : requestWords i = some ws)
    (rest : List Word) : decode (ws ++ rest) = .ok (i, rest) := by
  cases i <;> cases hws
  case read a => exact decode_readWord (of_decide_eq_true hi) rest
  case write a v => exact decode_writeWord (of_decide_eq_true hi) v rest
  case tick n => exact decode_tickWord (of_decide_eq_true hi) rest
  case pushButtons g0 g1 => exact decode_pushButtonsWord g0 g1 rest
  case ackTimerIrq => rfl
  case loadCart bytes => exact decode_loadCartWords (of_decide_eq_true hi) rest
  case reset => rfl
  case reserved110 x => exact decode_reserved110Word x rest

end Machine
end Sys2Proof
end

section
/-! PROOFS. The statements of spec/20_memory.md: reads and writes repeated, the cartridge region, the order of a stream of
requests, and the rows that absorb writes. -/

namespace Sys2Proof.Machine

/-- Settles O8: the second READ finds STARTED set and, the response apart, the elements the first one read. -/
theorem readsArePureAndIdempotent : Obligations.ReadsArePureAndIdempotent := by
  intro s a hf ha
  obtain ⟨r, hr⟩ := resolve_of_lt ha
  refine ⟨_, exec_read_of_resolve hf hr, ?_, rfl, rfl⟩
  rw [exec_read_of_resolve (s := s.start.setResponse _) hf hr, State.start_eq_self (by simp), readRegion_setResponse]
  rfl

/-- Settles O11: the second WRITE finds STARTED set, and its region already holds the value. -/
theorem writesAreIdempotent : Obligations.WritesAreIdempotent := by
  intro s a v hinv hf ha
  obtain ⟨r, hr⟩ := resolve_of_lt ha
  obtain ⟨-, -, -, -, hstarted, hfault⟩ := (written_writeRegion hr v s.start).frame
  refine ⟨_, exec_write_of_resolve hf hr v, ?_⟩
  rw [exec_write_of_resolve (s := State.setResponse _ _) (hfault.trans hf) hr,
    State.start_eq_self (s := State.setResponse _ _) hstarted,
    writeRegion_writeRegion (s := s.start) hinv.store_wf hr]
  rfl

/-- Settles O45: what stores below 0x8000 is LOAD_CART, its data words or RESET; a write stores at 0x8000 or above. -/
theorem cartridgeChangesOnlyByLoading : Obligations.CartridgeChangesOnlyByLoading := by
  intro i s t hinv h hreset hload hdata a ha
  refine storeChangesOnlyWhereStoredTo i s t hinv h a ?_
  rintro (⟨-, hlo, -⟩ | ⟨bytes, rfl, -⟩ | ⟨p, b, rfl, -⟩ | rfl)
  · omega
  · exact hload bytes rfl
  · exact hdata p b rfl
  · exact hreset rfl

/-- Settles O53: by induction on the requests. The first step performs the first request, which neither sees the words
behind it nor takes them off the port; the others follow from the state it leaves. -/
theorem streamIsPerformedInOrder : Obligations.StreamIsPerformedInOrder := by
  intro is
  induction is with
  | nil => exact fun _ _ _ => rfl
  | cons i is ih =>
    intro s rest his
    obtain ⟨⟨hi, hsome⟩, his⟩ := List.forall_mem_cons.mp his
    obtain ⟨ws, hws⟩ := Option.isSome_iff_exists.mp hsome
    have hstep : step (s.setPort (requestStream (i :: is) ++ rest)) =
        withPort (requestStream is ++ rest) (exec i s) := by
      refine (step_of_decode_ok (i := i) (rest := requestStream is ++ rest) ?_).trans (exec_setPort i s _)
      simpa [requestStream, hws] using decode_requestWords hi hws (requestStream is ++ rest)
    rw [List.length_cons, core_run_succ, hstep, runAll, exec_setPort]
    cases exec i s with
    | next t => exact ih t rest his
    | fault | refused => rfl

/-- Settles O17: with no fault recorded each row is its access on the started state; a write is absorbed. -/
theorem readOnlyAndForbiddenRowsAbsorbWrites : Obligations.ReadOnlyAndForbiddenRowsAbsorbWrites := by
  intro s hf
  have hread := forbiddenRow_read hf
  have hwrite := forbiddenRow_write hf
  exact ⟨fun _ => rowAccess_read hf _ _, fun _ v => rowAccess_write hf v _ absorb, fun _ => hread, fun _ => hwrite,
    fun _ => hread, fun _ => hwrite, fun _ => hread, fun _ => hwrite, fun _ => hread, fun _ => hwrite⟩

end Sys2Proof.Machine
end

section
/-! SUPPORT. The address decode table (spec/30_encoding.md R87): a row matches the addresses its instruction is for, the
first match is the one whose instruction is well-formed, and the rows of priority 3 cover the address space without
overlap. -/

namespace Sys2Proof
open Machine

/-- The façade request of an access is an access to its address. -/
theorem accessOf_accessRequest (acc : Access) (a : Nat) : accessOf (accessRequest acc a) = some (acc, a) := by
  cases acc <;> rfl

/-! ## A row and its instruction -/

/-- A row's mask compares the bits from some position `k` up, and its instruction for an address is for the match with
the `k` low bits of that address. -/
theorem accessOf_instr_of_mem : ∀ r ∈ addressTable, ∃ k, r.mask = BitVec.allOnes 17 <<< k ∧
    ∀ (acc : Access) (a : AddrField),
      accessOf (r.target.instr acc a) = some (acc, r.value.toNat + a.toNat % 2 ^ k) := by
  simp only [addressTable, List.forall_mem_cons]
  refine ⟨⟨16, ?_⟩, ⟨0, ?_⟩, ⟨0, ?_⟩, ⟨0, ?_⟩, ⟨0, ?_⟩, ⟨0, ?_⟩, ⟨7, ?_⟩, ⟨7, ?_⟩, ⟨8, ?_⟩, ⟨12, ?_⟩, ⟨11, ?_⟩,
    ⟨10, ?_⟩, ⟨9, ?_⟩, ⟨13, ?_⟩, ⟨13, ?_⟩, ⟨13, ?_⟩, ⟨15, ?_⟩, nofun⟩
  all_goals exact ⟨by decide, fun acc a => by simp [Target.instr, accessOf, Nat.mod_one]⟩

/-- A row matches an address exactly when its instruction for the address is an access to it. -/
theorem AddrRow.hits_iff_accessOf {r : AddrRow} (hr : r ∈ addressTable) (acc : Access) (a : AddrField) :
    r.hits a = true ↔ accessOf (r.target.instr acc a) = some (acc, a.toNat) := by
  obtain ⟨k, hmask, haccess⟩ := accessOf_instr_of_mem r hr
  have hsplit := Nat.div_add_mod' a.toNat (2 ^ k)
  rw [haccess, AddrRow.hits_iff_div k hmask, Option.some.injEq, Prod.mk.injEq, eq_self, true_and]
  exact ⟨fun h => h ▸ hsplit, fun h => Nat.add_right_cancel (hsplit.trans h.symm)⟩

theorem accessOf_of_decodeTarget {t : Target} {a : AddrField} (h : decodeTarget a = some t) (acc : Access) :
    accessOf (t.instr acc a) = some (acc, a.toNat) := by
  obtain ⟨r, hfind, rfl⟩ := Option.map_eq_some_iff.mp h
  exact (AddrRow.hits_iff_accessOf (List.mem_of_find?_eq_some hfind) acc a).mp (by simpa using List.find?_some hfind)

/-- The special registers' addresses take rows of higher priority than plain storage (30_encoding R87, R88). -/
theorem decodeTarget_specialOffset : ∀ off ∈ specialOffsets,
    decodeTarget (BitVec.ofNat 17 (0xFF00 + off)) ≠ some .regsPlain := by
  decide

theorem mem_specialOffsets_iff (off : Nat) :
    off ∈ specialOffsets ↔ off = 0 ∨ off = 4 ∨ off = 5 ∨ off = 6 ∨ off = 7 := by
  simp [specialOffsets, Config.offJoyp, Config.offDiv, Config.offTima, Config.offTma, Config.offTac]

theorem wellFormed_of_decodeTarget {t : Target} {a : AddrField} (h : decodeTarget a = some t) (acc : Access) :
    (t.instr acc a).wellFormed = true := by
  cases t
  case regsPlain =>
    have haddr : 0xFF00 + (a.extractLsb' 0 7).toNat = a.toNat := by
      simpa only [Target.instr, accessOf, Option.some.injEq, Prod.mk.injEq, true_and] using
        accessOf_of_decodeTarget h acc
    have hplain : (a.extractLsb' 0 7).toNat ∉ specialOffsets := fun hmem =>
      decodeTarget_specialOffset _ hmem (by rw [haddr, BitVec.ofNat_toNat, BitVec.setWidth_eq, h])
    simpa [Target.instr, Instr.wellFormed] using hplain
  all_goals rfl

/-- A well-formed row instruction for an address is of the target that the table gives the address: the ranges of
`decodeTarget_eq`, evaluated in the range of each row. -/
theorem decodeTarget_of_accessOf {t : Target} {acc : Access} {a : AddrField} (hwf : (t.instr acc a).wellFormed = true)
    (haccess : accessOf (t.instr acc a) = some (acc, a.toNat)) : decodeTarget a = some t := by
  have ha := a.isLt
  rw [decodeTarget_eq]
  cases t
  all_goals
    simp [Target.instr, Instr.wellFormed, mem_specialOffsets_iff, accessOf] at hwf haccess
    grind

/-! ## The rows cover the addresses -/

/-- The rows of priority 3 cover the address space. -/
theorem exists_row_of_lt {a : AddrField} (ha : a.toNat < 0x10000) :
    ∃ r ∈ addressTable, r.priority = 3 ∧ r.hits a = true := by
  by_contra hnone
  simp [addressTable, AddrRow.hits_iff_div (m := 0x1FF80#17) 7 (by decide),
    AddrRow.hits_iff_div (m := 0x1FF00#17) 8 (by decide), AddrRow.hits_iff_div (m := 0x1F000#17) 12 (by decide),
    AddrRow.hits_iff_div (m := 0x1F800#17) 11 (by decide), AddrRow.hits_iff_div (m := 0x1FC00#17) 10 (by decide),
    AddrRow.hits_iff_div (m := 0x1FE00#17) 9 (by decide), AddrRow.hits_iff_div (m := 0x1E000#17) 13 (by decide),
    AddrRow.hits_iff_div (m := 0x18000#17) 15 (by decide)] at hnone
  omega

/-- Rows with an address in common have matches that agree on the bits both compare. -/
theorem AddrRow.value_and_mask_of_hits {r r' : AddrRow} {a : AddrField} (h : r.hits a = true) (h' : r'.hits a = true) :
    r.value &&& r'.mask = r'.value &&& r.mask := by
  rw [← eq_of_beq h, ← eq_of_beq h']
  ac_rfl

/-- Two different rows of priority 3 disagree on the bits both compare. -/
theorem row_eq_of_value_and_mask : ∀ r ∈ addressTable, ∀ r' ∈ addressTable, r.priority = 3 → r'.priority = 3 →
    r.value &&& r'.mask = r'.value &&& r.mask → r = r' := by
  decide

theorem isSome_decodeTarget (a : AddrField) : (decodeTarget a).isSome = true := by
  rw [decodeTarget_eq]
  simp only [apply_ite Option.isSome, Option.isSome_some, ite_self]

/-! ## The rows and their spellings -/

/-- The number of an address written as a row's fixed bits and the `n` bits below them. -/
theorem add_toNat_eq_toNat_append {m n base : Nat} (p : BitVec m) (x : BitVec n) (hp : p.toNat * 2 ^ n = base) :
    base + x.toNat = (p ++ x).toNat := by
  rw [BitVec.toNat_append, ← Nat.shiftLeft_add_eq_or_of_lt x.isLt, Nat.shiftLeft_eq, hp]

/-- An instruction spelled by an address is an access to it. -/
theorem accessOf_of_encode {i : Instr} {acc : Access} {a : AddrField} (h : encode i = .address acc a) :
    accessOf i = some (acc, a.toNat) := by
  cases i <;> cases h
  case addrJoyp | addrDiv | addrTima | addrTma | addrTac => rfl
  case addrCart x =>
    exact congrArg (fun n => some (acc, n)) <|
      (Nat.zero_add _).symm.trans (add_toNat_eq_toNat_append 0#2 x rfl)
  all_goals exact congrArg (fun n => some (acc, n)) (add_toNat_eq_toNat_append _ _ rfl)

/-- An instruction spelled by an address is a row's, with the bits of the address that the row leaves free. -/
theorem exists_target_of_encode {i : Instr} {acc : Access} {a : AddrField} (h : encode i = .address acc a) :
    ∃ t : Target, i = t.instr acc a := by
  have low {m n : Nat} (p : BitVec m) (x : BitVec n) : x = (p ++ x).extractLsb' 0 n :=
    BitVec.extractLsb'_append_eq_right.symm
  cases i <;> cases h
  case addrOutOfRange x => exact ⟨.outOfRange, congrArg (Instr.addrOutOfRange · acc) (low _ x)⟩
  case addrJoyp => exact ⟨.joyp, rfl⟩
  case addrDiv => exact ⟨.div, rfl⟩
  case addrTima => exact ⟨.tima, rfl⟩
  case addrTma => exact ⟨.tma, rfl⟩
  case addrTac => exact ⟨.tac, rfl⟩
  case addrRegsPlain x => exact ⟨.regsPlain, congrArg (Instr.addrRegsPlain · acc) (low _ x)⟩
  case addrStack x => exact ⟨.stack, congrArg (Instr.addrStack · acc) (low _ x)⟩
  case addrOam x => exact ⟨.oam, congrArg (Instr.addrOam · acc) (low _ x)⟩
  case addrForbiddenE x => exact ⟨.forbiddenE, congrArg (Instr.addrForbiddenE · acc) (low _ x)⟩
  case addrForbiddenF0 x => exact ⟨.forbiddenF0, congrArg (Instr.addrForbiddenF0 · acc) (low _ x)⟩
  case addrForbiddenF8 x => exact ⟨.forbiddenF8, congrArg (Instr.addrForbiddenF8 · acc) (low _ x)⟩
  case addrForbiddenFC x => exact ⟨.forbiddenFC, congrArg (Instr.addrForbiddenFC · acc) (low _ x)⟩
  case addrWram x => exact ⟨.wram, congrArg (Instr.addrWram · acc) (low _ x)⟩
  case addrExtram x => exact ⟨.extram, congrArg (Instr.addrExtram · acc) (low _ x)⟩
  case addrVram x => exact ⟨.vram, congrArg (Instr.addrVram · acc) (low _ x)⟩
  case addrCart x => exact ⟨.cart, congrArg (Instr.addrCart · acc) (low _ x)⟩

theorem encode_instr (t : Target) (acc : Access) (a : AddrField) : ∃ b, encode (t.instr acc a) = .address acc b := by
  cases t <;> exact ⟨_, rfl⟩

/-- An address takes a row exactly when the row's instruction is well-formed and spelled by the address. -/
theorem decodeAddress_eq_some_iff {i : Instr} {acc : Access} {a : AddrField} :
    decodeAddress acc a = some i ↔ i.wellFormed = true ∧ encode i = .address acc a := by
  constructor
  · intro h
    obtain ⟨t, ht, rfl⟩ := Option.map_eq_some_iff.mp h
    obtain ⟨b, hb⟩ := encode_instr t acc a
    have hab := (accessOf_of_decodeTarget ht acc).symm.trans (accessOf_of_encode hb)
    simp only [Option.some.injEq, Prod.mk.injEq, true_and, BitVec.toNat_inj] at hab
    exact ⟨wellFormed_of_decodeTarget ht acc, hab ▸ hb⟩
  · rintro ⟨hwf, henc⟩
    obtain ⟨t, rfl⟩ := exists_target_of_encode henc
    exact Option.map_eq_some_iff.mpr ⟨t, decodeTarget_of_accessOf hwf (accessOf_of_encode henc), rfl⟩

end Sys2Proof
end

section
/-! SUPPORT. The words that decode to a request are the request's own, and the first bad data word is an error
(spec/30_encoding.md R82, R83, R85). -/

namespace Sys2Proof
open Machine

/-! ## The fields of a word, put together again -/

theorem readWord_eq_of_fields {w : Word} (hop : opField w = 0b000#3) (hzero : w.extractLsb' 0 12 = 0#12) :
    0b000#3 ++ BitVec.ofNat 17 (w.extractLsb' 12 17).toNat ++ 0#12 = w := by
  rw [BitVec.ofNat_toNat, BitVec.setWidth_eq, ← hop, ← hzero, opField,
    BitVec.extractLsb'_append_extractLsb'_eq_extractLsb' (show 29 = 12 + 17 from rfl)]
  exact BitVec.extractLsb'_append_extractLsb' (w := 20) (len := 12)

theorem writeWord_eq_of_fields {w : Word} (hop : opField w = 0b001#3) (hzero : w.extractLsb' 8 4 = 0#4) :
    0b001#3 ++ BitVec.ofNat 17 (w.extractLsb' 12 17).toNat ++ 0#4 ++ w.extractLsb' 0 8 = w := by
  rw [BitVec.ofNat_toNat, BitVec.setWidth_eq, ← hop, ← hzero, opField,
    BitVec.extractLsb'_append_extractLsb'_eq_extractLsb' (show 29 = 12 + 17 from rfl),
    BitVec.extractLsb'_append_extractLsb'_eq_extractLsb' (show 12 = 8 + 4 from rfl)]
  exact BitVec.extractLsb'_append_extractLsb' (w := 24) (len := 8)

theorem pushButtonsWord_eq_of_fields {w : Word} (hop : opField w = 0b011#3) (hzero : w.extractLsb' 8 21 = 0#21) :
    0b011#3 ++ 0#21 ++ w.extractLsb' 4 4 ++ w.extractLsb' 0 4 = w := by
  rw [← hop, ← hzero, opField, BitVec.extractLsb'_append_extractLsb'_eq_extractLsb' (show 29 = 8 + 21 from rfl),
    BitVec.extractLsb'_append_extractLsb'_eq_extractLsb' (show 8 = 4 + 4 from rfl)]
  exact BitVec.extractLsb'_append_extractLsb' (w := 28) (len := 4)

theorem opWord_eq_of_fields {w : Word} {k : BitVec 3} {x : BitVec 29} (hop : opField w = k)
    (hlow : w.extractLsb' 0 29 = x) : k ++ x = w := by
  rw [← hop, ← hlow]
  exact (word_eq_op_append w).symm

theorem countWord_eq_of_fields {w : Word} {k : BitVec 3} (hop : opField w = k) :
    k ++ BitVec.ofNat 29 (w.extractLsb' 0 29).toNat = w := by
  rw [BitVec.ofNat_toNat, BitVec.setWidth_eq]
  exact opWord_eq_of_fields hop rfl

/-! ## Data words -/

theorem dataByte_eq_some_iff {w : Word} {b : Byte} : dataByte w = some b ↔ w = dataWord b := by
  constructor
  · intro h
    rw [dataByte_eq] at h
    split at h
    · next hzero =>
      cases h
      rw [dataWord, ← hzero]
      exact (BitVec.extractLsb'_append_extractLsb' (w := 24) (len := 8)).symm
    · cases h
  · rintro rfl
    exact dataByte_dataWord b

/-- The words a LOAD_CART's image is read from are its data words (30_encoding R85). -/
theorem words_of_decodeData {n : Nat} : ∀ {ws rest : List Word} {bytes : List Byte},
    decodeData n ws = .ok (bytes, rest) → bytes.length = n ∧ bytes.map dataWord ++ rest = ws := by
  induction n with
  | zero =>
    rintro ws rest bytes ⟨⟩
    exact ⟨rfl, rfl⟩
  | succ n ih =>
    intro ws rest bytes h
    cases ws with
    | nil => cases h
    | cons w ws =>
      rw [decodeData] at h
      split at h
      · cases h
      · next b hb =>
        split at h
        · next bs rest' hbs =>
          cases h
          obtain ⟨hlen, hws⟩ := ih hbs
          exact ⟨congrArg (· + 1) hlen, by rw [List.map_cons, List.cons_append, hws, dataByte_eq_some_iff.mp hb]⟩
        · cases h

/-- The first data word with non-zero bits 31:8 is the error, where it is one of the image's (30_encoding R83). -/
theorem decodeData_error {w : Word} (hw : dataByte w = none) (rest : List Word) :
    ∀ {n : Nat} (good : List Byte), good.length < n →
      decodeData n (good.map dataWord ++ w :: rest) = .error (.reservedData w)
  | n + 1, [], _ => by simp [decodeData, hw]
  | n + 1, b :: good, h => by
    have ih := decodeData_error hw rest good (Nat.lt_of_succ_lt_succ h)
    simp [decodeData, dataByte_dataWord, ih]

/-! ## Requests -/

/-- The words that decode to a request are its own, and it is well-formed (30_encoding R82, R85). -/
theorem requestWords_of_decode {ws rest : List Word} {i : Instr} (h : decode ws = .ok (i, rest)) :
    i.wellFormed = true ∧ ∃ own, requestWords i = some own ∧ own ++ rest = ws := by
  cases ws with
  | nil => cases h
  | cons w ws =>
    rw [decode_cons] at h
    split_ifs at h with hread hwrite htick hpush hack hload hreserved hreset
    · cases h
      exact ⟨decide_eq_true (BitVec.isLt _), _, rfl, congrArg (· :: rest) (readWord_eq_of_fields hread.1 hread.2)⟩
    · cases h
      exact ⟨decide_eq_true (BitVec.isLt _), _, rfl, congrArg (· :: rest) (writeWord_eq_of_fields hwrite.1 hwrite.2)⟩
    · cases h
      exact ⟨decide_eq_true (BitVec.isLt _), _, rfl, congrArg (· :: rest) (countWord_eq_of_fields htick)⟩
    · cases h
      exact ⟨rfl, _, rfl, congrArg (· :: rest) (pushButtonsWord_eq_of_fields hpush.1 hpush.2)⟩
    · cases h
      exact ⟨rfl, _, rfl, congrArg (· :: rest) (opWord_eq_of_fields hack.1 hack.2)⟩
    · split at h
      · next bytes rest' hdata =>
        cases h
        obtain ⟨hlen, hws⟩ := words_of_decodeData hdata
        refine ⟨decide_eq_true (hlen ▸ BitVec.isLt _), _, rfl, ?_⟩
        rw [hlen, countWord_eq_of_fields hload, List.cons_append, hws]
      · cases h
    · cases h
      exact ⟨rfl, _, rfl, congrArg (· :: rest) (opWord_eq_of_fields hreserved rfl)⟩
    · cases h
      exact ⟨rfl, _, rfl, congrArg (· :: rest) (opWord_eq_of_fields hreset.1 hreset.2)⟩

theorem requestWords_eq_some_iff {i : Instr} {ws : List Word} : requestWords i = some ws ↔ encode i = .request ws := by
  unfold requestWords
  cases encode i <;> simp

/-- Words decode to one request, none left over, exactly when it is well-formed and they are its encoding. -/
theorem decode_eq_ok_iff {i : Instr} {ws : List Word} :
    decode ws = .ok (i, []) ↔ i.wellFormed = true ∧ encode i = .request ws := by
  rw [← requestWords_eq_some_iff]
  constructor
  · intro h
    obtain ⟨hwf, own, hown, rfl⟩ := requestWords_of_decode h
    exact ⟨hwf, hown.trans (congrArg some (List.append_nil own).symm)⟩
  · rintro ⟨hwf, hws⟩
    simpa using decode_requestWords hwf hws []

end Sys2Proof
end

section
/-! PROOFS. The statements of spec/30_encoding.md: the round trips of the decoder and the encoder, the address decode
table, the reserved words, and the response word. -/

namespace Sys2Proof
open Machine

/-! ## Decoding and encoding -/

theorem decodeSpelling_request {ws : List Word} {i : Instr} :
    decodeSpelling (.request ws) = .ok i ↔ decode ws = .ok (i, []) := by
  rcases h : decode ws with e | ⟨j, _ | ⟨w, rest⟩⟩ <;> simp [decodeSpelling, h]

theorem decodeSpelling_data {p : BitVec 15} {w : Word} {i : Instr} :
    decodeSpelling (.data p w) = .ok i ↔ ∃ b, dataByte w = some b ∧ i = .loadCartData p b := by
  cases h : dataByte w <;> simp [decodeSpelling, h, eq_comm]

theorem decodeSpelling_address {acc : Access} {a : AddrField} {i : Instr} :
    decodeSpelling (.address acc a) = .ok i ↔ decodeAddress acc a = some i := by
  cases h : decodeAddress acc a <;> simp [decodeSpelling, h]

theorem encode_eq_data_iff {p : BitVec 15} {w : Word} {i : Instr} :
    encode i = .data p w ↔ ∃ b, w = dataWord b ∧ i = .loadCartData p b := by
  constructor
  · intro h
    cases i <;> cases h
    exact ⟨_, rfl, rfl⟩
  · rintro ⟨b, rfl, rfl⟩
    rfl

/-- The decoder and the encoder are each other's inverse: a spelling decodes to an instruction exactly when the
instruction is well-formed and encoded so. -/
theorem decodeSpelling_eq_ok_iff {sp : Spelling} {i : Instr} :
    decodeSpelling sp = .ok i ↔ i.wellFormed = true ∧ encode i = sp := by
  cases sp with
  | request ws => exact decodeSpelling_request.trans decode_eq_ok_iff
  | data p w =>
    simp only [decodeSpelling_data, dataByte_eq_some_iff, encode_eq_data_iff]
    constructor
    · rintro ⟨b, hw, rfl⟩
      exact ⟨rfl, b, hw, rfl⟩
    · exact And.right
  | address acc a => exact decodeSpelling_address.trans decodeAddress_eq_some_iff

/-- Settles O49: one direction of `decodeSpelling_eq_ok_iff`. -/
theorem decodeAfterEncode : Obligations.DecodeAfterEncode := fun _ hwf => decodeSpelling_eq_ok_iff.mpr ⟨hwf, rfl⟩

/-- Settles O50: the other direction of `decodeSpelling_eq_ok_iff`. -/
theorem encodeAfterDecode : Obligations.EncodeAfterDecode := fun _ _ => decodeSpelling_eq_ok_iff.mp

/-! ## The address decode table -/

/-- Settles O14: the rows of priority 3 cover the address space, and two that match one address are the same row. -/
theorem everyAddressTakesOneRow : Obligations.EveryAddressTakesOneRow := by
  refine ⟨fun a ha => ?_, fun acc a => ?_⟩
  · obtain ⟨r, hr, hprio, hhits⟩ := exists_row_of_lt ha
    have honly : ∀ x ∈ addressTable, (decide (x.priority = 3) && x.hits a) = true ↔ (x == r) = true := by
      intro x hx
      simp only [Bool.and_eq_true, decide_eq_true_eq, beq_iff_eq]
      constructor
      · rintro ⟨hxprio, hxhits⟩
        exact row_eq_of_value_and_mask x hx r hr hxprio hprio (AddrRow.value_and_mask_of_hits hxhits hhits)
      · rintro rfl
        exact ⟨hprio, hhits⟩
    rw [← List.countP_eq_length_filter, List.countP_congr honly]
    exact List.count_eq_one_of_mem (by decide) hr
  · rw [decodeAddress, Option.isSome_map]
    exact isSome_decodeTarget a

/-- Settles O15: the row's instruction and the façade request are accesses to the same address. -/
theorem rowsPerformTheFacadeAccess : Obligations.RowsPerformTheFacadeAccess := by
  intro acc a s
  obtain ⟨t, ht⟩ := Option.isSome_iff_exists.mp (isSome_decodeTarget a)
  refine ⟨t.instr acc a, Option.map_eq_some_iff.mpr ⟨t, ht, rfl⟩, ?_⟩
  rw [exec_eq_facade (accessOf_of_decodeTarget ht acc), exec_eq_facade (accessOf_accessRequest acc a.toNat)]

/-! ## Reserved words -/

/-- Settles O48: no row of the request table has the word's OP and its reserved bits; of the data words, the first bad
one is the error. -/
theorem reservedBitsSpellNoRequest : Obligations.ReservedBitsSpellNoRequest := by
  refine ⟨fun w rest hw => ?_, fun h w good rest hop hlen hw => ?_⟩
  · rw [decode_cons]
    rcases hw with ⟨hop, hbits⟩ | ⟨hop, hbits⟩ | ⟨hop, hbits⟩ | ⟨hop, hbits⟩ | ⟨hop, hbits⟩ <;> simp [hop, hbits]
  · have hbad : dataByte w = none := by rw [dataByte_eq, if_neg hw]
    rw [List.cons_append, decode_cons, decodeData_error hbad rest good hlen]
    simp [hop]

/-- Settles O35: with no fault recorded the refusal is the meaning of the row. -/
theorem reservedOpIsRefused : Obligations.ReservedOpIsRefused := fun _ _ hf => unlessFaulted_none hf _

/-! ## The response word -/

/-- Settles O46: the response word is its three fields, one after another. -/
theorem responseWordFields : Obligations.ResponseWordFields := by
  intro r
  have hzero : r.word.extractLsb' 10 22 = 0#22 :=
    (BitVec.extractLsb'_append_eq_of_le (by decide)).trans BitVec.extractLsb'_append_eq_left
  have hstatus : r.word.extractLsb' 8 2 = r.status :=
    (BitVec.extractLsb'_append_eq_of_le (by decide)).trans BitVec.extractLsb'_append_eq_right
  refine ⟨hzero, hstatus, ?_, ?_, ?_⟩
  · rintro v rfl
    exact ⟨rfl, BitVec.extractLsb'_append_eq_right⟩
  · rintro a rfl
    rfl
  · rintro n rfl
    rfl

/-- Settles O54: with no fault recorded the row raises the error on the started state, and a recorded fault has every
instruction refused. -/
theorem outOfRangeRowCompletesAndHalts : Obligations.OutOfRangeRowCompletesAndHalts := by
  intro s x acc hf
  obtain ⟨hzero, hstatus, -⟩ := responseWordFields (.outOfRange (0x10000 + x.toNat))
  exact ⟨_, .outOfRange (0x10000 + x.toNat), unlessFaulted_none hf _, rfl, hstatus, hzero, exec_afterFault rfl⟩

/-- Settles O47: the words are fixed, and the decoder is evaluated on each. -/
theorem specWordsDecode : Obligations.SpecWordsDecode := by
  unfold Obligations.SpecWordsDecode
  decide

end Sys2Proof
end

section
/-! PROOFS. The statements of spec/40_facade.md: what a READ and a WRITE of a valid address do in each region, the rows
of the plain store, and time, which no façade access advances. -/

namespace Sys2Proof.Machine

variable {s u : State}

/-! ## READ, by its address -/

/-- Region FORBIDDEN is the one row whose policy forbids the access (20_memory R51). -/
theorem region_forbidden_bounds : ∀ r ∈ Config.regionTable, r.policy = .forbidden →
    0xE000 ≤ r.start ∧ r.start + r.size ≤ 0xFE00 := by decide

/-- The rows read from the store lie outside region FORBIDDEN and the register region. -/
theorem region_store_bounds : ∀ r ∈ Config.regionTable, r.name ≠ .regs → r.policy ≠ .forbidden →
    r.start + r.size ≤ 0xE000 ∨ (0xFE00 ≤ r.start ∧ r.start + r.size ≤ 0xFF00) ∨ 0xFF80 ≤ r.start := by decide

/-- ReadRegion by address (40_facade R102, 41_register_bank R130). -/
theorem readRegion_eq {a : Nat} {r : Region} (hr : resolve a = some r) (s : State) : readRegion r a s =
    if 0xE000 ≤ a ∧ a < 0xFE00 then 0#8
    else if a = 0xFF00 then joypByte s.sel s.btn0 s.btn1 else if a = 0xFF04 then s.div else if a = 0xFF05 then s.tima
    else if a = 0xFF06 then s.tma else if a = 0xFF07 then s.tac else s.store.read a := by
  obtain ⟨hmem, hlo, hhi⟩ := mem_of_resolve hr
  by_cases hn : r.name = .regs
  · obtain ⟨hp, hstart, hsize⟩ := region_regs r hmem hn
    obtain ⟨off, rfl⟩ : ∃ off, a = 0xFF00 + off := Nat.exists_eq_add_of_le (hstart ▸ hlo)
    rw [readRegion_regs hn hp, regRead_eq, if_neg (show ¬ (0xE000 ≤ 0xFF00 + off ∧ 0xFF00 + off < 0xFE00) by omega)]
    iterate 5 refine ite_chain (by omega) fun _ => ?_
    rfl
  · by_cases hp : r.policy = .forbidden
    · obtain ⟨hstart, hend⟩ := region_forbidden_bounds r hmem hp
      rw [readRegion_forbidden hp, if_pos ⟨hstart.trans hlo, hhi.trans_le hend⟩]
    · have hbounds := region_store_bounds r hmem hn hp
      rw [readRegion_store hn hp]
      iterate 6 rw [if_neg (by omega)]

/-- Settles O6: the address resolves to a region, the READ returns the region's byte, and STARTED hides none of the
elements read. -/
theorem readReturnsTheByteOfItsRegion : Obligations.ReadReturnsTheByteOfItsRegion := by
  intro s a hf ha
  obtain ⟨r, hr⟩ := resolve_of_lt ha
  rw [exec_read_of_resolve hf hr, readRegion_eq hr]
  rfl

/-! ## WRITE, by its address -/

/-- The state a write leaves is a function of the address (40_facade R103, 41_register_bank R131). -/
theorem Written.eq_ite {a : Nat} {v : Byte} (h : Written a v s u) : u =
    if a < 0x8000 then s
    else if 0xE000 ≤ a ∧ a < 0xFE00 then s
    else if a = 0xFF00 then s.setSel (selectorOf v)
    else if a = 0xFF04 then s.setDivider 0 0
    else if a = 0xFF05 then s.setTima v
    else if a = 0xFF06 then s.setTma v
    else if a = 0xFF07 then s.setTac v
    else s.setStore (s.store.write a v) := by
  cases h with
  | absorbed ha =>
    rcases ha with hcart | hforbidden
    · rw [if_pos hcart]
    · rw [if_neg (by omega), if_pos hforbidden]
  | store hlo hb =>
    have hbacked := backed_iff.mp hb
    iterate 7 rw [if_neg (by omega)]
  | sel ha | divider ha | tima ha | tma ha | tac ha => simp [ha]

/-- Settles O9: the address resolves to a region, and the WRITE answers the started state with the one element its
address selects written. -/
theorem writeStoresByItsRegion : Obligations.WriteStoresByItsRegion := by
  intro s a v hf ha
  obtain ⟨r, hr⟩ := resolve_of_lt ha
  rw [exec_write_of_resolve hf hr, (written_writeRegion hr v s.start).eq_ite]
  simp only [apply_ite (State.setResponse · (.ok 0))]
  rfl

/-! ## The rows of the plain store -/

theorem regKind_plain {off : Nat} (h : specialOffsets.contains off = false) : regKind off = .plainStorage := by
  have hoff : off ∉ specialOffsets := by simpa using h
  rw [mem_specialOffsets_iff] at hoff
  rw [regKind_eq]
  iterate 5 rw [if_neg (by omega)]

theorem regRead_plain {off : Nat} (h : specialOffsets.contains off = false) :
    regRead off = storeRead (0xFF00 + off) := by
  funext s
  rw [regRead, regKind_plain h]
  rfl

theorem regWrite_plain {off : Nat} (h : specialOffsets.contains off = false) :
    regWrite off = storeWrite (0xFF00 + off) := by
  funext v s
  rw [regWrite, regKind_plain h]
  rfl

/-- At an offset that is not special the plain-storage row is a row of RAM (41_register_bank R133, R134). -/
theorem exec_addrRegsPlain {x : BitVec 7} (h : specialOffsets.contains x.toNat = false) (acc : Access) (s : State) :
    exec (.addrRegsPlain x acc) s = ramRow 0xFF00 x.toNat acc s := by
  rw [ramRow, ← regRead_plain h, ← regWrite_plain h]
  rfl

theorem ramRow_read (hf : s.fault = none) (base off : Nat) :
    ramRow base off .read s = .next (s.start.setResponse (.ok (s.store.read (base + off)))) :=
  rowAccess_read hf _ _

theorem ramRow_write (hf : s.fault = none) (base off : Nat) (v : Byte) :
    ramRow base off (.write v) s = .next ((storeWrite (base + off) v s.start).setResponse (.ok 0)) :=
  rowAccess_write hf v _ _

/-- Settles O16: each of the rows, plain storage included at an offset that is not special, is a row of RAM, which with
no fault recorded accesses the store of the started state. -/
theorem ramRowsAccessTheStore : Obligations.RamRowsAccessTheStore := by
  intro s hf
  have hread := ramRow_read hf
  have hwrite := ramRow_write hf
  exact ⟨fun _ => hread _ _, fun _ => hwrite _ _, fun _ => hread _ _, fun _ => hwrite _ _, fun _ => hread _ _,
    fun _ => hwrite _ _, fun _ => hread _ _, fun _ => hwrite _ _, fun _ => hread _ _, fun _ => hwrite _ _,
    fun _ hx => (exec_addrRegsPlain hx .read s).trans (hread _ _),
    fun _ v hx => (exec_addrRegsPlain hx (.write v) s).trans (hwrite _ _ v)⟩

/-! ## Time -/

namespace Written

variable {a : Nat} {v : Byte}

theorem divider_changed (h : Written a v s u) (hne : (u.div, u.divAcc) ≠ (s.div, s.divAcc)) :
    a = 0xFF04 ∧ u.div = 0 ∧ u.divAcc = 0 := by
  cases h with
  | divider ha => exact ⟨ha, rfl, rfl⟩
  | _ => exact absurd rfl hne

theorem tima_changed (h : Written a v s u) (hne : u.tima ≠ s.tima) : a = 0xFF05 := by
  cases h with
  | tima ha => exact ha
  | _ => exact absurd rfl hne

end Written

/-- Settles O41: of the effects other than those of RESET and TICK, only a write touches DIV, DIV_ACC or TIMA, each by
its own register, and only ACK_TIMER_IRQ touches TIRQ. -/
theorem timeAdvancesOnlyByTick : Obligations.TimeAdvancesOnlyByTick := by
  intro i s t h hreset htick
  cases (exec_next h).2 with
  | write hi hw =>
    obtain ⟨-, -, htacc, htirq, -, -⟩ := hw.frame
    refine ⟨htacc, fun hne => ?_, fun hne => ⟨_, hw.tima_changed hne ▸ hi⟩, fun hne => absurd htirq hne⟩
    obtain ⟨rfl, hdiv, hacc⟩ := hw.divider_changed hne
    exact ⟨⟨_, hi⟩, hdiv, hacc⟩
  | tick n => exact absurd rfl (htick n)
  | reset => exact absurd rfl hreset
  | _ => simp

end Sys2Proof.Machine
end

section
/-! PROOFS. The statements of spec/41_register_bank.md: the five special registers as rows of the address decode table, the
multiplexed JOYP read, the divider cleared by a write, and the fields of TAC. -/

namespace Sys2Proof.Machine

variable {s : State}

/-- Settles O18: each row is an access of the started state to its own element. -/
theorem specialRegisterRowsAccessTheirElement : Obligations.SpecialRegisterRowsAccessTheirElement := by
  intro s hf
  have hread := rowAccess_read hf
  have hwrite := rowAccess_write hf
  exact ⟨hread _ joypWrite, hread _ dividerWrite, hread _ fun v t => t.setTima v, hread _ fun v t => t.setTma v,
    hread _ fun v t => t.setTac v, fun v => ⟨hwrite v joypRead _, hwrite v State.div _, hwrite v State.tima _,
      hwrite v State.tma _, hwrite v State.tac _⟩⟩

/-- Two instructions that are one access at one address do the same (30_encoding R87). -/
theorem exec_eq_of_accessOf {i j : Instr} {p : Access × Nat} (hi : accessOf i = some p) (hj : accessOf j = some p)
    (s : State) : exec i s = exec j s :=
  (exec_eq_facade hi s).trans (exec_eq_facade hj s).symm

/-! ## JOYP -/

/-- The three fields of the input-select byte (41_register_bank R135). -/
theorem joypByte_fields (sel : BitVec 2) (b0 b1 : Nibble) :
    (joypByte sel b0 b1).extractLsb' 6 2 = 0b11#2 ∧ (joypByte sel b0 b1).extractLsb' 4 2 = sel ∧
    (joypByte sel b0 b1).extractLsb' 0 4 = mux sel b0 b1 :=
  ⟨(BitVec.extractLsb'_append_eq_of_le (by decide)).trans BitVec.extractLsb'_append_eq_left,
    (BitVec.extractLsb'_append_eq_of_le (by decide)).trans BitVec.extractLsb'_append_eq_right,
    BitVec.extractLsb'_append_eq_right⟩

/-- Settles O7: READ 0xFF00 is the row JOYP, which returns the input-select byte. -/
theorem joypReadMultiplexesTheButtons : Obligations.JoypReadMultiplexesTheButtons := by
  refine ⟨fun b0 b1 => ⟨rfl, rfl, rfl, rfl⟩, fun s hf => ⟨joypByte s.sel s.btn0 s.btn1, ?_, joypByte_fields _ _ _⟩⟩
  obtain ⟨hjoyp, -⟩ := specialRegisterRowsAccessTheirElement s hf
  exact (exec_eq_of_accessOf rfl rfl s).trans hjoyp

/-! ## The divider -/

/-- WRITE 0xFF04 is the divider row's write, which discards the value (41_register_bank R139). -/
theorem exec_write_div (hf : s.fault = none) (v : Byte) :
    exec (.write 0xFF04 v) s = .next ((s.start.setDivider 0 0).setResponse (.ok 0)) :=
  (exec_eq_of_accessOf (j := .addrDiv (.write v)) rfl rfl s).trans (rowAccess_write hf v State.div dividerWrite)

/-- READ 0xFF04 is the divider row's read (41_register_bank R138). -/
theorem exec_read_div (hf : s.fault = none) : exec (.read 0xFF04) s = .next (s.start.setResponse (.ok s.div)) :=
  (exec_eq_of_accessOf (j := .addrDiv .read) rfl rfl s).trans (rowAccess_read hf State.div dividerWrite)

/-- From a cleared divider DIV counts the whole periods of the cycles that follow (42_timer R170, R171). -/
theorem exec_tick_div_of_cleared (hf : s.fault = none) (hdiv : s.div = 0) (hacc : s.divAcc = 0) (n : Nat) :
    ∃ u, exec (.tick n) s = .next u ∧ u.div = BitVec.ofNat 8 (n / 256) :=
  ⟨_, unlessFaulted_none hf _, by simp [timerAdvance_eq, dividerAdvance_eq, hdiv, hacc]⟩

/-- Settles O12: the write leaves DIV and DIV_ACC at 0, and fewer than 256 cycles hold no whole period, 256 hold one. -/
theorem dividerWriteClears : Obligations.DividerWriteClears := by
  intro s v hf
  have htick := exec_tick_div_of_cleared (s := (s.start.setDivider 0 0).setResponse (.ok 0)) hf rfl rfl
  refine ⟨_, exec_write_div hf v, rfl, rfl, rfl, rfl, rfl, exec_read_div hf, fun n hn => ?_, htick 256⟩
  have hnone : n / 256 = 0 := Nat.div_eq_of_lt hn
  exact hnone ▸ htick n

/-! ## TAC -/

/-- The period is the rate that CLK_SEL indexes (41_register_bank R146). -/
theorem timerPeriod_of_clkSel {tac : Byte} {k : BitVec 2} (h : clkSel tac = k) :
    timerPeriod tac = Config.rateTable[k.toNat]'k.isLt := by
  subst h
  rfl

/-- Settles O21: the enable is bit 2 by definition, and each value of CLK_SEL indexes its own rate. -/
theorem tacFieldsSelectRateAndEnable : Obligations.TacFieldsSelectRateAndEnable := fun _ =>
  ⟨rfl, timerPeriod_of_clkSel (k := 0b00#2), timerPeriod_of_clkSel (k := 0b01#2), timerPeriod_of_clkSel (k := 0b10#2),
    timerPeriod_of_clkSel (k := 0b11#2)⟩

end Sys2Proof.Machine
end

section
/-! PROOFS. The statements of spec/42_timer.md: the counter's increments in one formula, the loops of the two advances and
their closed forms, TICK as a next state, and TICKs that add up. -/

namespace Sys2Proof.Machine

variable {s t u : State}

/-! ## The counter (R173) -/

/-- Settles O20: the two branches of the increment. -/
theorem counterIncrementReloadsOnOverflow : Obligations.CounterIncrementReloadsOnOverflow :=
  fun _ => ⟨counterIncrement_overflow, counterIncrement_count⟩

theorem toNat_add_one_of_ne_max {v : Byte} (h : v ≠ 0xFF#8) : (v + 1#8).toNat = v.toNat + 1 := by
  bv_omega

/-- Up to 0xFF the counter counts. -/
theorem counterIncrements_of_lt (k : Nat) : ∀ s : State, s.tima.toNat + k < 256 →
    counterIncrements k s = s.setTima (BitVec.ofNat 8 (s.tima.toNat + k)) := by
  induction k with
  | zero => intro s _; simp [State.setTima]
  | succ k ih =>
    intro s h
    have hne : s.tima ≠ 0xFF#8 := by bv_omega
    have hsum : (s.tima + 1#8).toNat + k = s.tima.toNat + (k + 1) := by rw [toNat_add_one_of_ne_max hne]; omega
    rw [counterIncrements_succ, counterIncrement_count hne, ih _ (by rwa [State.setTima_tima, hsum]), State.setTima_tima,
      hsum]
    rfl

/-- TIMA when `k` increments have followed a reload: it runs through the `256 - TMA` values from TMA to 0xFF. -/
def timaAfterReload (tma : Byte) (k : Nat) : Byte := BitVec.ofNat 8 (tma.toNat + k % (256 - tma.toNat))

theorem timaAfterReload_of_lt {tma : Byte} {k : Nat} (h : tma.toNat + k < 256) :
    timaAfterReload tma k = BitVec.ofNat 8 (tma.toNat + k) := by
  rw [timaAfterReload, Nat.mod_eq_of_lt (by omega)]

/-- The `256 - TMA` increments up to the next reload leave the rest to follow it. -/
theorem timaAfterReload_of_ge {tma : Byte} {k : Nat} (h : 256 ≤ tma.toNat + k) :
    timaAfterReload tma k = timaAfterReload tma (tma.toNat + k - 256) := by
  have hrest : k - (256 - tma.toNat) = tma.toNat + k - 256 := by omega
  rw [timaAfterReload, Nat.mod_eq_sub_mod (by omega), hrest, timaAfterReload]

/-- From the first overflow on, the counter has been reloaded. -/
theorem counterIncrements_of_ge (k : Nat) : ∀ s : State, 256 ≤ s.tima.toNat + k →
    counterIncrements k s = (s.setTima (timaAfterReload s.tma (s.tima.toNat + k - 256))).setTirq true := by
  induction k with
  | zero => intro s h; omega
  | succ k ih =>
    intro s h
    rw [counterIncrements_succ]
    by_cases hmax : s.tima = 0xFF#8
    · have hrest : s.tima.toNat + (k + 1) - 256 = k := by bv_omega
      rw [counterIncrement_overflow hmax, hrest]
      by_cases hlt : s.tma.toNat + k < 256
      · rw [counterIncrements_of_lt k _ hlt, timaAfterReload_of_lt hlt]
        rfl
      · rw [ih _ (Nat.le_of_not_lt hlt), timaAfterReload_of_ge (Nat.le_of_not_lt hlt)]
        rfl
    · have hsum : (s.tima + 1#8).toNat + k = s.tima.toNat + (k + 1) := by rw [toNat_add_one_of_ne_max hmax]; omega
      rw [counterIncrement_count hmax, ih _ (by rwa [State.setTima_tima, hsum]), State.setTima_tima, hsum]
      rfl

/-- Settles O24: the counter counts up to 0xFF, and from the first overflow on it has been reloaded. -/
theorem manyIncrementsInOneFormula : Obligations.ManyIncrementsInOneFormula := by
  intro s k
  refine ⟨counterIncrements_of_lt k s, fun h => ?_⟩
  rw [counterIncrements_of_ge k s h, timaAfterReload, State.setTima, State.setTirq]

/-! ## The divider (R171) -/

/-- Adding a count to a byte, modulo 256. -/
theorem byte_add_ofNat (d : Byte) (k : Nat) : d + BitVec.ofNat 8 k = BitVec.ofNat 8 (d.toNat + k) := by
  simp [BitVec.ofNat_add]

theorem dividerAdvance_zero_of_lt (h : s.divAcc < 256) : dividerAdvance 0 s = s := by
  rw [dividerAdvance_eq, Nat.add_zero, Nat.div_eq_of_lt h, Nat.mod_eq_of_lt h, BitVec.add_zero]
  rfl

/-- One turn of the divider's loop: a whole period taken off DIV_ACC is one increment of DIV. -/
theorem dividerAdvance_zero_of_ge (h : 256 ≤ s.divAcc) :
    dividerAdvance 0 (s.setDivider (s.div + 1#8) (s.divAcc - 256)) = dividerAdvance 0 s := by
  have hdiv : s.divAcc / 256 = 1 + (s.divAcc - 256) / 256 := by omega
  have hmod : s.divAcc % 256 = (s.divAcc - 256) % 256 := by omega
  rw [dividerAdvance_eq, dividerAdvance_eq, Nat.add_zero, Nat.add_zero, hdiv, hmod, BitVec.ofNat_add, ← BitVec.add_assoc]
  rfl

theorem dividerLoop_eq_dividerAdvance (fuel : Nat) : ∀ s : State, s.divAcc ≤ fuel →
    dividerLoop fuel s = dividerAdvance 0 s := by
  induction fuel with
  | zero =>
    intro s h
    exact (dividerAdvance_zero_of_lt (s := s) (by omega)).symm
  | succ fuel ih =>
    intro s h
    rw [dividerLoop]
    split_ifs with hge
    · have hge : 256 ≤ s.divAcc := hge
      rw [ih _ (by simp [Config.divPeriod]; omega)]
      exact dividerAdvance_zero_of_ge hge
    · exact (dividerAdvance_zero_of_lt (Nat.lt_of_not_le hge)).symm

/-- Settles O22: the loop takes whole periods off `DIV_ACC + n`, each one increment of DIV. -/
theorem dividerLoopIsItsClosedForm : Obligations.DividerLoopIsItsClosedForm := by
  intro s n fuel hfuel
  refine ⟨dividerLoop_eq_dividerAdvance fuel _ hfuel, ?_⟩
  rw [dividerAdvance_eq, byte_add_ofNat]
  rfl

/-! ## The timer (R172) -/

theorem counterIncrements_setTacc (k n : Nat) : ∀ s : State,
    counterIncrements k (s.setTacc n) = (counterIncrements k s).setTacc n := by
  induction k with
  | zero => exact fun _ => rfl
  | succ k ih =>
    intro s
    have hone : counterIncrement (s.setTacc n) = (counterIncrement s).setTacc n := by
      rw [counterIncrement_eq, counterIncrement_eq]
      rfl
    rw [counterIncrements_succ, hone, ih, counterIncrements_succ]

theorem counterIncrements_tac (k : Nat) (s : State) : (counterIncrements k s).tac = s.tac := by
  rw [counterIncrements_frame]
  rfl

/-- What `c` crossings do: each is an increment if the timer is enabled, and `x` cycles are left in TACC. -/
def timerCross (c x : Nat) (s : State) : State :=
  (counterIncrements (if timerEnabled s.tac then c else 0) s).setTacc x

@[simp] theorem timerCross_tac (c x : Nat) (s : State) : (timerCross c x s).tac = s.tac := counterIncrements_tac _ s

@[simp] theorem timerCross_tacc (c x : Nat) (s : State) : (timerCross c x s).tacc = x := rfl

theorem timerCross_zero (s : State) : timerCross 0 s.tacc s = s := by
  rw [timerCross, ite_self, counterIncrements_zero]
  rfl

theorem timerCross_timerCross (c d x y : Nat) (s : State) :
    timerCross d y (timerCross c x s) = timerCross (c + d) y s := by
  rw [timerCross, timerCross_tac, timerCross, timerCross, counterIncrements_setTacc, ← counterIncrements_add]
  cases timerEnabled s.tac <;> rfl

theorem timerAdvance_eq_timerCross (n : Nat) (s : State) :
    timerAdvance n s = timerCross ((s.tacc + n) / timerPeriod s.tac) ((s.tacc + n) % timerPeriod s.tac) s := by
  rw [timerAdvance, timerCross]
  cases timerEnabled s.tac with
  | false => rfl
  | true => exact counterIncrements_setTacc _ _ s

theorem timerAdvance_zero_of_lt (h : s.tacc < timerPeriod s.tac) : timerAdvance 0 s = s := by
  rw [timerAdvance_eq_timerCross, Nat.add_zero, Nat.div_eq_of_lt h, Nat.mod_eq_of_lt h, timerCross_zero]

theorem timerLoop_succ_of_ge (h : timerPeriod s.tac ≤ s.tacc) (fuel : Nat) :
    timerLoop (timerPeriod s.tac) (timerEnabled s.tac) (fuel + 1) s =
      timerLoop (timerPeriod s.tac) (timerEnabled s.tac) fuel (timerCross 1 (s.tacc - timerPeriod s.tac) s) := by
  refine (if_pos h).trans (congrArg _ ?_)
  rw [timerCross]
  cases timerEnabled s.tac with
  | false => rfl
  | true => exact counterIncrements_setTacc 1 _ s

/-- A period taken off TACC as one crossing leaves the rest of the advance. -/
theorem timerAdvance_timerCross_one (h : timerPeriod s.tac ≤ s.tacc) :
    timerAdvance 0 (timerCross 1 (s.tacc - timerPeriod s.tac) s) = timerAdvance 0 s := by
  rw [timerAdvance_eq_timerCross, timerAdvance_eq_timerCross, timerCross_timerCross, timerCross_tacc, timerCross_tac,
    Nat.add_zero, Nat.add_zero, Nat.div_eq_sub_div (timerPeriod_pos s.tac) h, Nat.mod_eq_sub_mod h, Nat.add_comm 1]

theorem timerLoop_eq_timerAdvance (fuel : Nat) : ∀ s : State, s.tacc ≤ fuel →
    timerLoop (timerPeriod s.tac) (timerEnabled s.tac) fuel s = timerAdvance 0 s := by
  induction fuel with
  | zero =>
    intro s h
    have hpos := timerPeriod_pos s.tac
    exact (timerAdvance_zero_of_lt (s := s) (by omega)).symm
  | succ fuel ih =>
    intro s h
    by_cases hge : timerPeriod s.tac ≤ s.tacc
    · have hpos := timerPeriod_pos s.tac
      have hrest := ih (timerCross 1 (s.tacc - timerPeriod s.tac) s) (by rw [timerCross_tacc]; omega)
      rw [timerCross_tac] at hrest
      rw [timerLoop_succ_of_ge hge, hrest, timerAdvance_timerCross_one hge]
    · rw [timerLoop, if_neg hge, timerAdvance_zero_of_lt (Nat.lt_of_not_le hge)]

/-- Settles O23: the loop takes whole periods off `TACC + n`, each one crossing; the closed form is the model's own. -/
theorem timerLoopIsItsClosedForm : Obligations.TimerLoopIsItsClosedForm :=
  fun s n fuel hfuel => ⟨timerLoop_eq_timerAdvance fuel (s.setTacc (s.tacc + n)) hfuel, rfl⟩

/-! ## TICK (R170) -/

/-- TimerAdvance looks at TACC, TIMA, TMA, TAC and TIRQ alone. -/
theorem timerAdvance_of_agree (htacc : u.tacc = s.tacc) (htima : u.tima = s.tima) (htma : u.tma = s.tma)
    (htac : u.tac = s.tac) (htirq : u.tirq = s.tirq) (n : Nat) : timerAdvance n u =
      ((u.setTacc ((s.tacc + n) % timerPeriod s.tac)).setTima (counterIncrements (timerIncrements s n) s).tima).setTirq
        (counterIncrements (timerIncrements s n) s).tirq := by
  have hk : timerIncrements u n = timerIncrements s n := by rw [timerIncrements, timerIncrements, htac, htacc]
  obtain ⟨htima', htirq'⟩ := counterIncrements_congr (timerIncrements s n) u s htima htma htirq
  rw [timerAdvance_eq, hk, htima', htirq', htac, htacc]

theorem timerAdvance_setResponse (n : Nat) (s : State) (r : Response) :
    timerAdvance n (s.setResponse r) = (timerAdvance n s).setResponse r := by
  rw [timerAdvance_eq s]
  exact timerAdvance_of_agree (u := s.setResponse r) (s := s) rfl rfl rfl rfl rfl n

/-- The two advances touch different elements. -/
theorem timerAdvance_dividerAdvance (m n : Nat) (s : State) :
    timerAdvance n (dividerAdvance m s) = dividerAdvance m (timerAdvance n s) := by
  rw [timerAdvance_eq s]
  exact timerAdvance_of_agree (u := dividerAdvance m s) (s := s) rfl rfl rfl rfl rfl n

/-- The state that TICK `n` leaves, but for the response (R170). -/
def ticked (n : Nat) (s : State) : State := timerAdvance n (dividerAdvance n s.start)

theorem exec_tick (hf : s.fault = none) (n : Nat) : exec (.tick n) s = .next ((ticked n s).setResponse (.ok 0)) :=
  unlessFaulted_none hf _

theorem ticked_fault (n : Nat) (s : State) : (ticked n s).fault = s.fault := by
  rw [ticked, timerAdvance_eq]
  rfl

/-- Settles O19: the timer's advance sees the elements of `s`, as STARTED and the divider are none of them. -/
theorem tickAdvancesDividerAndTimer : Obligations.TickAdvancesDividerAndTimer := by
  intro s n hf
  rw [exec_tick hf, ticked, timerAdvance_of_agree (u := dividerAdvance n s.start) (s := s) rfl rfl rfl rfl rfl,
    dividerAdvance_eq, byte_add_ofNat]
  rfl

/-- TICK completes with no fault recorded, and its crossings reach TIMA and TIRQ. -/
theorem exec_tick_next (hf : s.fault = none) (n : Nat) : ∃ t, exec (.tick n) s = .next t ∧ t.fault = none ∧
    t.tacc = (s.tacc + n) % timerPeriod s.tac ∧ t.tima = (counterIncrements (timerIncrements s n) s).tima ∧
    t.tirq = (counterIncrements (timerIncrements s n) s).tirq :=
  ⟨_, tickAdvancesDividerAndTimer s n hf, hf, rfl, rfl, rfl⟩

/-! ## TICKs that add up (R175, R176) -/

/-- The whole periods in `x + b` cycles: those in `x`, and those that the rest of `x` makes up with `b`. -/
theorem add_div_eq_div_add_div {N : Nat} (hN : 0 < N) (x b : Nat) : (x + b) / N = x / N + (x % N + b) / N :=
  calc (x + b) / N = (N * (x / N) + (x % N + b)) / N := by rw [← Nat.add_assoc, Nat.div_add_mod]
    _ = x / N + (x % N + b) / N := Nat.mul_add_div hN _ _

theorem dividerAdvance_dividerAdvance (a b : Nat) (s : State) :
    dividerAdvance b (dividerAdvance a s) = dividerAdvance (a + b) s := by
  have hdiv := add_div_eq_div_add_div (N := 256) (by decide) (s.divAcc + a) b
  rw [dividerAdvance_eq (s := s) (a + b), ← Nat.add_assoc, hdiv, ← Nat.mod_add_mod (s.divAcc + a), BitVec.ofNat_add,
    ← BitVec.add_assoc]
  rfl

theorem timerAdvance_timerAdvance (a b : Nat) (s : State) :
    timerAdvance b (timerAdvance a s) = timerAdvance (a + b) s := by
  rw [timerAdvance_eq_timerCross a s, timerAdvance_eq_timerCross, timerCross_timerCross, timerCross_tac, timerCross_tacc,
    ← add_div_eq_div_add_div (timerPeriod_pos s.tac), Nat.mod_add_mod, Nat.add_assoc, ← timerAdvance_eq_timerCross]

theorem ticked_ticked (a b : Nat) (s : State) : ticked b (ticked a s) = ticked (a + b) s :=
  calc ticked b (ticked a s)
    _ = timerAdvance b (dividerAdvance b (timerAdvance a (dividerAdvance a s.start))) := by
        rw [ticked, ticked, State.start_eq_self (by simp [tick_frame])]
    _ = timerAdvance b (timerAdvance a (dividerAdvance b (dividerAdvance a s.start))) := by
        rw [timerAdvance_dividerAdvance b a]
    _ = ticked (a + b) s := by rw [timerAdvance_timerAdvance, dividerAdvance_dividerAdvance, ticked]

/-- TICK does not look at the response port. -/
theorem exec_tick_setResponse (hf : s.fault = none) (n : Nat) (r : Response) :
    exec (.tick n) (s.setResponse r) = exec (.tick n) s := by
  have hticked : ticked n (s.setResponse r) = (ticked n s).setResponse r :=
    timerAdvance_setResponse n (dividerAdvance n s.start) r
  rw [exec_tick hf, exec_tick (s := s.setResponse r) hf, hticked]
  rfl

/-- A TICK after a TICK is the TICK of both. -/
theorem exec_tick_of_exec_tick {a : Nat} (h : exec (.tick a) s = .next t) (b : Nat) :
    exec (.tick b) t = exec (.tick (a + b)) s := by
  obtain ⟨hf, rfl⟩ := unlessFaulted_respond_next.mp h
  have hticked : (ticked a s).fault = none := (ticked_fault a s).trans hf
  exact (exec_tick_setResponse hticked b (.ok 0)).trans (by rw [exec_tick hticked, ticked_ticked, exec_tick hf])

/-- A READ of a valid address before a TICK leaves no trace: the TICK sets STARTED and the response itself. -/
theorem exec_read_then_tick {a : Nat} (hf : s.fault = none) (ha : a < 0x10000) :
    ∃ t, exec (.read a) s = .next t ∧ t.fault = none ∧ ∀ b, exec (.tick b) t = exec (.tick b) s := by
  obtain ⟨r, hr⟩ := resolve_of_lt ha
  exact ⟨_, exec_read_of_resolve hf hr, hf, fun b => exec_tick_setResponse (s := s.start) hf b _⟩

theorem runAll_singleton (i : Instr) (s : State) : runAll [i] s = exec i s := by
  rw [runAll]
  cases exec i s <;> rfl

theorem runAll_cons_next {i : Instr} (h : exec i s = .next t) (is : List Instr) : runAll (i :: is) s = runAll is t := by
  rw [runAll, h]

theorem runAll_reads_then_tick (b : Nat) (reads : List Nat) : ∀ s : State, s.fault = none →
    (∀ x ∈ reads, x < 0x10000) → runAll (reads.map .read ++ [.tick b]) s = exec (.tick b) s := by
  induction reads with
  | nil => exact fun s _ _ => runAll_singleton _ s
  | cons x reads ih =>
    intro s hf hreads
    obtain ⟨hx, hreads⟩ := List.forall_mem_cons.mp hreads
    obtain ⟨t, hread, ht, htick⟩ := exec_read_then_tick hf hx
    rw [List.map_cons, List.cons_append, runAll_cons_next hread, ih t ht hreads, htick]

/-- Settles O25: the READs are invisible to the TICK that follows them, and two TICKs are one. -/
theorem ticksAddUp : Obligations.TicksAddUp := by
  intro s a b reads hf hreads
  obtain ⟨t, ha, ht, -⟩ := exec_tick_next hf a
  rw [List.cons_append, runAll_cons_next ha, runAll_reads_then_tick b reads t ht hreads, exec_tick_of_exec_tick ha]

/-- A run of TICKs is the TICK of their sum. -/
theorem runAll_ticks (ns : List Nat) : ∀ (n : Nat) (s : State), s.fault = none →
    runAll ((n :: ns).map .tick) s = exec (.tick (n :: ns).sum) s := by
  induction ns with
  | nil => exact fun n s _ => runAll_singleton (.tick n) s
  | cons m ns ih =>
    intro n s hf
    obtain ⟨t, hn, ht, -⟩ := exec_tick_next hf n
    rw [List.map_cons, runAll_cons_next hn, ih m t ht, exec_tick_of_exec_tick hn, ← List.sum_cons]

theorem timerIncrements_disabled (he : timerEnabled s.tac = false) (n : Nat) : timerIncrements s n = 0 := by
  simp [timerIncrements, he]

/-- One period from TACC = 0 is one crossing. -/
theorem timerIncrements_period (he : timerEnabled s.tac = true) (h0 : s.tacc = 0) :
    timerIncrements s (timerPeriod s.tac) = 1 := by
  simp [timerIncrements, he, h0, Nat.div_self (timerPeriod_pos s.tac)]

/-- Settles O26: the TICKs are one TICK of their sum, which is one crossing; with the timer disabled, none increments. -/
theorem onePeriodOfTicksIncrementsOnce : Obligations.OnePeriodOfTicksIncrementsOnce := by
  intro s ns hf
  cases ns with
  | nil => exact ⟨fun _ _ hsum => absurd hsum (timerPeriod_pos s.tac).ne, fun _ => ⟨s, rfl, rfl⟩⟩
  | cons n ns =>
    rw [runAll_ticks ns n s hf]
    obtain ⟨t, hnext, -, htacc, htima, htirq⟩ := exec_tick_next hf (n :: ns).sum
    refine ⟨fun he h0 hsum => ⟨t, hnext, ?_⟩, fun he => ⟨t, hnext, ?_⟩⟩
    · rw [hsum, h0, Nat.zero_add, Nat.mod_self] at htacc
      rw [hsum, timerIncrements_period he h0, counterIncrements_succ, counterIncrements_zero] at htima htirq
      rw [htima, htirq]
      refine ⟨htacc, fun hne => ?_, fun hmax => ?_⟩
      · simp [counterIncrement_count hne]
      · simp [counterIncrement_overflow hmax]
    · rw [htima, timerIncrements_disabled he, counterIncrements_zero]

end Sys2Proof.Machine
end

section
/-! PROOFS. The statements of spec/43_host_ports.md: the buttons, the acknowledge, the load of a cartridge image, and
the load as its data words. -/

namespace Sys2Proof.Machine

variable {s : State}

/-! ## PUSH_BUTTONS and ACK_TIMER_IRQ (R190, R191, R193) -/

/-- Settles O29: PUSH_BUTTONS is the latch of the two groups and the response. -/
theorem pushButtonsLatchesBothGroups : Obligations.PushButtonsLatchesBothGroups :=
  fun _ _ _ hf => unlessFaulted_none hf _

/-- Settles O30: ACK_TIMER_IRQ is TIRQ <- 0 and the response, and `timer_irq` is TIRQ. -/
theorem acknowledgeClearsTheTimerFlag : Obligations.AcknowledgeClearsTheTimerFlag :=
  fun _ hf => ⟨unlessFaulted_none hf _, rfl⟩

/-! ## LOAD_CART and its data words (R192) -/

theorem exec_loadCart_afterStart (hf : s.fault = none) (hs : s.started = true) (bytes : List Byte) :
    exec (.loadCart bytes) s = .refused .loadAfterStart :=
  (unlessFaulted_none hf _).trans (unlessStarted_true hs _)

theorem exec_loadCartData_afterStart (hf : s.fault = none) (hs : s.started = true) (i : BitVec 15) (b : Byte) :
    exec (.loadCartData i b) s = .refused .loadAfterStart :=
  (unlessFaulted_none hf _).trans (unlessStarted_true hs _)

theorem exec_loadCartData (hf : s.fault = none) (hs : s.started = false) (i : BitVec 15) (b : Byte) :
    exec (.loadCartData i b) s = .next ((s.setStore (s.store.write i.toNat b)).setResponse (.ok 0)) :=
  (unlessFaulted_none hf _).trans (unlessStarted_false hs _)

/-- A read after a load from address 0: the image's byte inside the image, every other byte as before. -/
theorem Memory.read_load_zero {m : Memory} (h : m.wf = true) {bytes : List Byte}
    (hl : bytes.length ≤ Config.totalSize) (x : Nat) :
    (m.load 0 bytes).read x = if hx : x < bytes.length then bytes[x] else m.read x := by
  rw [Memory.read_load h x (by omega), if_pos (Nat.zero_le x), Nat.sub_zero]
  split_ifs with hx
  · rw [List.getElem?_eq_getElem hx, Option.getD_some]
  · rw [List.getElem?_eq_none (Nat.le_of_not_lt hx), Option.getD_none]

theorem le_totalSize_of_le_cartSize {n : Nat} (h : n ≤ 0x8000) : n ≤ Config.totalSize :=
  h.trans (by decide)

/-- Settles O31: an image that fits is the load of the store from address 0. -/
theorem loadCartCopiesTheImage : Obligations.LoadCartCopiesTheImage := fun s bytes hinv hf =>
  ⟨fun hs hl => ⟨s.store.load 0 bytes, execLoadCart_fits hf hs hl,
      Memory.read_load_zero hinv.store_wf (le_totalSize_of_le_cartSize hl)⟩,
    fun hs => exec_loadCart_afterStart hf hs bytes⟩

/-- Settles O33: a data word is one write of the store. -/
theorem loadCartDataStoresItsByte : Obligations.LoadCartDataStoresItsByte := fun s i b hinv hf =>
  ⟨fun hs => ⟨s.store.write i.toNat b, exec_loadCartData hf hs i b, Memory.read_write hinv.store_wf i.toNat b⟩,
    fun hs => exec_loadCartData_afterStart hf hs i b⟩

/-- The load may write its first byte first, as R192's copy loop does: the positions are distinct. -/
theorem Memory.load_cons_eq_load_write {m : Memory} (h : m.wf = true) {i : Nat} {b : Byte} {bs : List Byte}
    (hl : i + (b :: bs).length ≤ Config.totalSize) : m.load i (b :: bs) = (m.write i b).load (i + 1) bs := by
  have hwf := Memory.wf_load h hl
  rw [List.length_cons] at hl
  have hw : (m.write i b).wf = true := Memory.wf_write h (by omega) b
  refine Memory.ext hwf (Memory.wf_load hw (by omega)) fun x => ?_
  rw [Memory.load, Memory.read_write (Memory.wf_load h (by omega)), Memory.read_load h x (by omega),
    Memory.read_load hw x (by omega), Memory.read_write h]
  by_cases hx : x = i <;> simp [hx]

/-- The data words of an image, in order from position `i` (30_encoding R82). -/
def cartDataWords (i : Nat) (bytes : List Byte) : List Instr :=
  bytes.mapIdx fun k b => .loadCartData (BitVec.ofNat 15 (i + k)) b

theorem cartDataWords_cons (i : Nat) (b : Byte) (bs : List Byte) :
    cartDataWords i (b :: bs) = .loadCartData (BitVec.ofNat 15 i) b :: cartDataWords (i + 1) bs := by
  simp [cartDataWords, List.mapIdx_cons, Nat.add_assoc, Nat.add_comm 1]

theorem exec_loadCartData_ofNat (hf : s.fault = none) (hs : s.started = false) {i : Nat} (hi : i < 0x8000) (b : Byte) :
    exec (.loadCartData (BitVec.ofNat 15 i) b) s = .next ((s.setStore (s.store.write i b)).setResponse (.ok 0)) := by
  rw [exec_loadCartData hf hs, BitVec.toNat_ofNat, Nat.mod_eq_of_lt hi]

/-- Data words run in order from position `i` load their bytes from address `i`; the last one's response stays. -/
theorem runAll_cartDataWords (bs : List Byte) : ∀ (b : Byte) (i : Nat) (s : State), s.store.wf = true →
    s.fault = none → s.started = false → i + (b :: bs).length ≤ 0x8000 →
    runAll (cartDataWords i (b :: bs)) s = .next ((s.setStore (s.store.load i (b :: bs))).setResponse (.ok 0)) := by
  induction bs with
  | nil =>
    intro b i s _ hf hs hl
    rw [cartDataWords_cons]
    exact (runAll_singleton _ s).trans (exec_loadCartData_ofNat hf hs hl b)
  | cons c bs ih =>
    intro b i s hwf hf hs hl
    have hfits := le_totalSize_of_le_cartSize hl
    rw [List.length_cons] at hl
    have hwf' : (s.store.write i b).wf = true := Memory.wf_write hwf (by unfold Config.totalSize; omega) b
    have hrest := ih c (i + 1) ((s.setStore (s.store.write i b)).setResponse (.ok 0)) hwf' hf hs (by omega)
    rw [cartDataWords_cons, runAll_cons_next (exec_loadCartData_ofNat hf hs (by omega) b), hrest,
      Memory.load_cons_eq_load_write hwf hfits]
    rfl

/-- Settles O34: the data words of the whole image load it from address 0, as LOAD_CART does. -/
theorem loadCartIsItsDataWords : Obligations.LoadCartIsItsDataWords := by
  intro s bytes hinv hf hs hne hl
  obtain ⟨b, bs, rfl⟩ := List.exists_cons_of_ne_nil hne
  have hrun := runAll_cartDataWords bs b 0 s hinv.store_wf hf hs (by omega)
  simp only [cartDataWords, Nat.zero_add] at hrun
  exact hrun.trans (execLoadCart_fits hf hs hl).symm

end Sys2Proof.Machine
end

section
/-! PROOFS. The statements of spec/60_exceptions.md: the two errors, the order of the refusals, the recorded fault and
the idle core. -/

namespace Sys2Proof.Machine

variable {s t : State}

/-! ## The two errors (R210, R211, R212) -/

/-- An access out of range, with no fault recorded, whichever instruction makes it (R211). -/
theorem exec_outOfRange {i : Instr} {acc : Access} {a : Nat} (hf : s.fault = none) (hi : accessOf i = some (acc, a))
    (ha : 0x10000 ≤ a) : exec i s = .next ((s.start.setFault (.outOfRange a)).setResponse (.outOfRange a)) :=
  (exec_eq_facade hi s).trans ((facade_outOfRange ha acc s).trans (unlessFaulted_none hf _))

/-- Settles O13: READ, WRITE and the row are accesses out of range. -/
theorem outOfRangeIsRecordedAndReported : Obligations.OutOfRangeIsRecordedAndReported := fun _ hf =>
  ⟨fun _ ha => ⟨exec_outOfRange hf rfl ha, rfl⟩, fun _ _ ha => ⟨exec_outOfRange hf rfl ha, rfl⟩,
    fun _ _ => ⟨exec_outOfRange hf rfl (Nat.le_add_right _ _), rfl⟩⟩

/-- Settles O32: LOAD_CART of an image that does not fit ends in its error. -/
theorem oversizedImageIsRecordedAndReported : Obligations.OversizedImageIsRecordedAndReported :=
  fun _ _ hf hs hl => ⟨execLoadCart_exceeds hf hs hl, rfl⟩

/-- The error an instruction raises when it completes (R211, R212): the instruction alone decides it. -/
def errorOf (i : Instr) : Option Fault :=
  match accessOf i with
  | some (_, a) => if 0x10000 ≤ a then some (.outOfRange a) else none
  | none =>
    match i with
    | .loadCart bytes => if 0x8000 < bytes.length then some (.capacityExceeded bytes.length) else none
    | _ => none

theorem errorOf_access {i : Instr} {acc : Access} {a : Nat} (hi : accessOf i = some (acc, a)) :
    errorOf i = if 0x10000 ≤ a then some (.outOfRange a) else none := by
  simp only [errorOf, hi]

theorem errorOf_loadCart (bytes : List Byte) :
    errorOf (.loadCart bytes) = if 0x8000 < bytes.length then some (.capacityExceeded bytes.length) else none := rfl

theorem errorOf_eq_outOfRange_iff {i : Instr} {a : Nat} :
    errorOf i = some (.outOfRange a) ↔ 0x10000 ≤ a ∧ ∃ acc, accessOf i = some (acc, a) := by
  cases hi : accessOf i with
  | some p =>
    obtain ⟨acc, b⟩ := p
    simp only [errorOf_access hi, Option.ite_none_right_eq_some, Option.some.injEq, Fault.outOfRange.injEq,
      Prod.mk.injEq]
    constructor
    · rintro ⟨hb, rfl⟩
      exact ⟨hb, acc, rfl, rfl⟩
    · rintro ⟨ha, _, -, rfl⟩
      exact ⟨ha, rfl⟩
  | none =>
    simp only [errorOf, hi]
    split <;> simp

theorem errorOf_eq_capacityExceeded_iff {i : Instr} {n : Nat} :
    errorOf i = some (.capacityExceeded n) ↔ 0x8000 < n ∧ ∃ bytes, i = .loadCart bytes ∧ bytes.length = n := by
  constructor
  · intro h
    cases hi : accessOf i with
    | some p =>
      rw [errorOf_access hi] at h
      split_ifs at h
      cases h
    | none =>
      simp only [errorOf, hi] at h
      split at h
      · split_ifs at h with hl
        cases h
        exact ⟨hl, _, rfl, rfl⟩
      · cases h
  · rintro ⟨hn, bytes, rfl, rfl⟩
    exact if_pos hn

theorem lt_of_resolve {a : Nat} {r : Region} (hr : resolve a = some r) : a < 0x10000 := by
  obtain ⟨hmem, -, hhi⟩ := mem_of_resolve hr
  exact hhi.trans_le (region_end_le r hmem)

/-- The façade writes at valid addresses alone (40_facade R101). -/
theorem Written.lt {a : Nat} {v : Byte} (h : Written a v s t) : a < 0x10000 := by
  cases h with
  | store _ hb => exact backed_lt hb
  | _ => omega

/-- An instruction that completes leaves the fault it raises recorded, and no other. -/
theorem fault_of_exec_next {i : Instr} (h : exec i s = .next t) : t.fault = errorOf i := by
  obtain ⟨hf, he⟩ := exec_next h
  cases he with
  | outOfRange hi ha => rw [errorOf_access hi, if_pos ha]; rfl
  | read hi hr => rw [errorOf_access hi, if_neg (Nat.not_le.mpr (lt_of_resolve hr))]; exact hf
  | write hi hw =>
    rw [errorOf_access hi, if_neg (Nat.not_le.mpr hw.lt)]
    obtain ⟨-, -, -, -, -, hfault⟩ := hw.frame
    exact hfault.trans hf
  | loadExceeds _ hl => rw [errorOf_loadCart, if_pos hl]; rfl
  | loadFits _ hl => rw [errorOf_loadCart, if_neg (Nat.not_lt.mpr hl)]; exact hf
  | tick n => exact (ticked_fault n s).trans hf
  | reset => rfl
  | pushButtons | ackTimerIrq | loadData => exact hf

/-- Settles O37: FAULT is then the instruction's own error, and each error is one kind of instruction's. -/
theorem onlyTheTwoErrorsAreRecorded : Obligations.OnlyTheTwoErrorsAreRecorded := by
  intro i s t h
  rw [fault_of_exec_next h]
  exact ⟨fun _ => errorOf_eq_outOfRange_iff, fun _ => errorOf_eq_capacityExceeded_iff⟩

/-! ## Refusals and the idle core (R215, R216, R227, R228) -/

/-- A word presented after a fault is refused, whatever the words. -/
theorem step_afterFault {r : Fault} (hf : s.fault = some r) (hp : s.port ≠ []) : step s = .refused .afterFault := by
  have hfetch : fetch s = .afterFault := by simp [fetch, hf, hp]
  rw [step, hfetch]

/-- The halted core answers the recorded fault (log entry 3). -/
theorem step_halted {r : Fault} (hf : s.fault = some r) (hp : s.port = []) : step s = .fault r := by
  have hfetch : fetch s = .halted r := by simp [fetch, hf, hp]
  rw [step, hfetch]

/-- Settles O36: every instruction begins with the fault check, and so does the step's fetch. -/
theorem faultIsFinal : Obligations.FaultIsFinal := fun _ _ hf =>
  ⟨exec_afterFault hf, step_afterFault hf, step_halted hf⟩

/-- A word that spells no request is refused with that word (30_encoding R83). -/
theorem step_of_reserved {e : Word} (hf : s.fault = none)
    (hd : decode s.port = .error (.reservedBits e) ∨ decode s.port = .error (.reservedData e)) :
    step s = .refused (.reservedEncoding e) := by
  have hfetch : fetch s = .reserved e := by
    rw [fetch_of_no_fault hf]
    cases hp : s.port with
    | nil => simp [hp, decode] at hd
    | cons w rest => rcases hp ▸ hd with hd | hd <;> simp [fetchRequest, hd]
  rw [step, hfetch]

/-- A word of OP 0b110 is performed as its row, which refuses it with that word (30_encoding R83). -/
theorem step_of_reservedOp {w : Word} {rest : List Word} (hf : s.fault = none) (hp : s.port = w :: rest)
    (hop : opField w = 0b110#3) : step s = .refused (.reservedEncoding w) := by
  have hw : w = 0b110#3 ++ w.extractLsb' 0 29 := hop ▸ word_eq_op_append w
  have hd : decode s.port = .ok (.reserved110 (w.extractLsb' 0 29), rest) := by
    rw [hp, hw, low_append]
    exact decode_reserved110Word _ rest
  rw [step_of_decode_ok hd, reservedOpIsRefused (s.setPort rest) _ hf, ← hw]

/-- Settles O38: the fetch looks for a fault first, then decodes; LOAD_CART looks at STARTED before its length. -/
theorem refusalsAreDecidedFirst : Obligations.RefusalsAreDecidedFirst := fun _ =>
  ⟨fun _ hf hp => step_afterFault hf hp, fun _ _ hf hp hop => step_of_reservedOp hf hp hop,
    fun _ _ _ hf _ hd => step_of_reserved hf hd, fun bytes hf hs => exec_loadCart_afterStart hf hs bytes⟩

/-- Settles O52: with no whole request presented the fetch is idle or waiting, and the step then keeps the state. -/
theorem idleStepKeepsTheState : Obligations.IdleStepKeepsTheState := by
  intro s hf hport
  have hfetch : fetch s = .idle ∨ fetch s = .waiting := by
    rw [fetch_of_no_fault hf]
    cases hp : s.port with
    | nil => exact .inl rfl
    | cons w rest =>
      have hd : decode (w :: rest) = .error .incomplete := by simpa [hp] using hport
      exact .inr (by simp [fetchRequest, hd])
  rcases hfetch with h | h <;> rw [step, h]

end Sys2Proof.Machine
end

section
/-! PROOFS. The statements of spec/70_reset_and_hazards.md: RESET and the READs right after it, a stored byte read back
at once, and the residue in TACC across a change of the rate. -/

namespace Sys2Proof.Machine

variable {s : State}

/-! ## Reset (R240) -/

/-- Settles O1: RESET is the reset state with the words on the port kept. -/
theorem resetInitializesEveryElement : Obligations.ResetInitializesEveryElement :=
  fun _ hf => unlessFaulted_none hf _

/-- Settles O2: at JOYP the reset selector selects no group, and every other address reads a cleared element, the
sentinel, or a byte of the empty store. -/
theorem readsRightAfterReset : Obligations.ReadsRightAfterReset := by
  refine ⟨rfl, fun a ha => ?_⟩
  rw [readReturnsTheByteOfItsRegion State.reset a rfl ha]
  by_cases hjoyp : a = 0xFF00
  · subst hjoyp
    rfl
  · simp [hjoyp, State.reset, Memory.background]

/-! ## A stored byte (R247) -/

/-- READ of an address that requests store to returns the stored byte (40_facade R102, 41_register_bank R133). -/
theorem exec_read_of_backed {a : Nat} (hf : s.fault = none) (ha : backed a = true) :
    exec (.read a) s = .next (s.start.setResponse (.ok (s.store.read a))) := by
  have hbacked := backed_iff.mp ha
  rw [readReturnsTheByteOfItsRegion s a hf (backed_lt ha)]
  iterate 6 rw [if_neg (by omega)]
  rfl

/-- WRITE of such an address at 0x8000 or above stores the byte (40_facade R103, 41_register_bank R134). -/
theorem exec_write_of_backed {a : Nat} (hf : s.fault = none) (hlo : 0x8000 ≤ a) (ha : backed a = true) (v : Byte) :
    exec (.write a v) s = .next ((s.start.setStore (s.store.write a v)).setResponse (.ok 0)) := by
  have hbacked := backed_iff.mp ha
  rw [writeStoresByItsRegion s a v hf (backed_lt ha)]
  iterate 7 rw [if_neg (by omega)]
  rfl

/-- Settles O10: the WRITE stores the byte and the READ returns the stored byte, STARTED being set already. -/
theorem writtenByteReadsBackAtOnce : Obligations.WrittenByteReadsBackAtOnce := by
  intro s a v hinv hf hlo ha
  have hread := Memory.read_write hinv.store_wf a v
  refine ⟨_, exec_write_of_backed hf hlo ha v, ?_, fun x hx => (hread x).trans (if_neg hx)⟩
  have hback : (s.store.write a v).read a = v := (hread a).trans (if_pos rfl)
  rw [exec_read_of_backed (s := (s.start.setStore (s.store.write a v)).setResponse (.ok 0)) hf ha,
    State.setResponse_store, State.setStore_store, hback]
  rfl

/-! ## A change of the rate (R245) -/

/-- WRITE 0xFF07 is the write of the row TAC (41_register_bank R145). -/
theorem exec_write_tac (hf : s.fault = none) (v : Byte) :
    exec (.write 0xFF07 v) s = .next ((s.start.setTac v).setResponse (.ok 0)) :=
  writeStoresByItsRegion s 0xFF07 v hf (by decide)

/-- Settles O27: the write leaves TACC, and the TICK of no cycles crosses the whole periods of the new rate in it. -/
theorem rateChangeDrainsTheResidue : Obligations.RateChangeDrainsTheResidue := by
  intro s v hf
  obtain ⟨u, hu, -, htacc, htima, htirq⟩ :=
    exec_tick_next (s := (s.start.setTac v).setResponse (.ok 0)) hf 0
  obtain ⟨htima', htirq'⟩ := counterIncrements_congr
    (timerIncrements ((s.start.setTac v).setResponse (.ok 0)) 0) ((s.start.setTac v).setResponse (.ok 0)) s rfl rfl rfl
  exact ⟨_, u, exec_write_tac hf v, rfl, rfl, rfl, rfl, hu, htacc, htima.trans htima', htirq.trans htirq'⟩

end Sys2Proof.Machine
end
